-- ==== Sys2Proof/Word.lean ====
section
/-! DEFINITION. The word types of the block: bytes, bus and port addresses, transaction words
(10_state.md, 20_memory.md R50, 30_encoding.md R85). -/

namespace Sys2Proof

/-- A u8: register-port data and one bus byte (20_memory.md R51). -/
abbrev Byte := BitVec 8

/-- A u16 register-port or bus address (20_memory.md R50). -/
abbrev Address := BitVec 16

/-- The 26-bit transaction word `kind[25:24] ++ addr[23:8] ++ data[7:0]` (30_encoding.md R85). -/
abbrev TxWord := BitVec 26

end Sys2Proof
end

