-- ==== Sys2Proof/Config.lean ====
section
/-! DEFINITION. The parameters of 00_scope.md R8 to R12 and the fixed constants of R7. A configuration is plain
data that State carries unchanged, so a claim about every state is a claim about every parameter choice (log 5). -/

namespace Sys2Proof

/-- A pixel has exactly two values (10_state.md R31). -/
inductive Pixel
  | light
  | dark
deriving DecidableEq, Repr

/-- STAT_BIT7, the reading of STATUS bit 7 (10_state.md R25). -/
inductive StatBit7
  | stored
  | readsZero
  | readsOne
deriving DecidableEq, Repr

/-- PIXEL_ORDER, which bit of a plane byte is column 0 (42_renderer.md R164). -/
inductive PixelOrder
  | msbFirst
  | lsbFirst
deriving DecidableEq, Repr

/-- RESOLVE as its truth table: `r01` is the pixel for plane 0 bit 0 and plane 1 bit 1. Only the table of OR is
admitted (00_scope.md R12); the check is `configAdmitted`. -/
structure Resolve where
  r00 : Pixel
  r01 : Pixel
  r10 : Pixel
  r11 : Pixel
deriving DecidableEq, Repr

/-- The table of `Dark if (a = 1 or b = 1) else Light` (00_scope.md R12). -/
def Resolve.or : Resolve := ⟨.light, .dark, .dark, .dark⟩

/-- The parameters (00_scope.md R8 to R12). -/
structure Config where
  statusAddr    : Address
  scanlineAddr  : Address
  compareAddr   : Address
  controlAddr   : Address
  scrollYAddr   : Address
  scrollXAddr   : Address
  paletteAddr   : Address
  ifAddr        : Address
  mapBase       : Address
  tileBase      : Address
  ifVblankBit   : Fin 8
  ifStatBit     : Fin 8
  oamEntryQuirk : Bool
  statBit7      : StatBit7
  pixelOrder    : PixelOrder
  resolve       : Resolve
deriving DecidableEq, Repr

/-- The spec's default for every parameter (00_scope.md R8 to R11). PRESUMED by the spec itself: the addresses, bases,
IF bits and pixel order are the original console's, from general knowledge (log 6). -/
def Config.defaults : Config where
  statusAddr    := 0xFF41
  scanlineAddr  := 0xFF44
  compareAddr   := 0xFF45
  controlAddr   := 0xFF40
  scrollYAddr   := 0xFF42
  scrollXAddr   := 0xFF43
  paletteAddr   := 0xFF47
  ifAddr        := 0xFF0F
  mapBase       := 0x9800
  tileBase      := 0x8000
  ifVblankBit   := 0
  ifStatBit     := 1
  oamEntryQuirk := true
  statBit7      := .stored
  pixelOrder    := .msbFirst
  resolve       := .or

end Sys2Proof
end

