-- ==== Sys2Proof/Syntax.lean ====
section
/-! DEFINITION. The operations of the block, one constructor per row of spec/opcode_table.json: the transactions the
decoder can name (30_encoding.md R87), its verdict INVALID (R89), and the internal operations, which have no word. -/

namespace Sys2Proof

/-- The four display modes (10_state.md R21). -/
inductive Mode
  | hblank
  | vblank
  | oam
  | xfer
deriving DecidableEq, Repr

/-- What a register-port address selects (41_register_port.md R140). -/
inductive PortReg
  | status
  | scanline
  | compare
  | unmapped
deriving DecidableEq, Repr

/-- The operations, in the order of spec/opcode_table.json. -/
inductive Instr
  /-- STEP with its count operand beside the word (R81, R86); an integer, so that the guard of R202 can be met (log 8). -/
  | step (n : Int)
  | readStatus
  | readScanline
  | readCompare
  | readUnmapped (addr : Address)
  | writeStatus (v : Byte)
  /-- The written value is carried and ignored (R146). -/
  | writeScanline (v : Byte)
  | writeCompare (v : Byte)
  | writeUnmapped (addr : Address) (v : Byte)
  | init
  /-- A word that spells no transaction (R89). -/
  | invalid (w : TxWord)
  | tOamXfer
  | tXferHblank
  | tHblankOam
  | tHblankVblank
  | tVblankLine
  | tVblankOam
  /-- STAT_MODE_ENTRY for the mode just entered (R111). -/
  | statModeEntry (m : Mode)
  | coincidenceCheck
  /-- DECODE_SCANLINE of a line (R160). -/
  | decodeScanline (line : Nat)
  | completeFrame
deriving DecidableEq, Repr

end Sys2Proof
end

