-- ==== Sys2Proof/WellFormed.lean ====
section
/-! DEFINITION. Which terms of `Instr` stand for an operation the spec writes: a count is not negative (30_encoding.md
R86), an unmapped address is none of the three port addresses (41_register_port.md R140), an INVALID word has a
reserved field that is not zero (30_encoding.md R85, R89). -/

namespace Sys2Proof

/-- The address is one of the three of the register port (10_state.md R37). -/
def onPort (cfg : Config) (addr : Address) : Bool :=
  addr == cfg.statusAddr || addr == cfg.scanlineAddr || addr == cfg.compareAddr

/-- A field that R85 reserves for the word's kind is not zero. Written from R85's table of fields, apart from the
decoder's table of verdicts. -/
def reservedNonZero (w : TxWord) : Bool :=
  let kind := w.extractLsb' 24 2
  (kind == 0b00#2 && w.extractLsb' 0 24 != 0) ||
  (kind == 0b01#2 && w.extractLsb' 0 8 != 0) ||
  (kind == 0b11#2 && w.extractLsb' 0 24 != 0)

/-- The operation is one the spec writes. Internal operations carry no encoded operand, so nothing is checked. -/
def WellFormed (cfg : Config) : Instr → Bool
  | .step n => 0 ≤ n
  | .readStatus => true
  | .readScanline => true
  | .readCompare => true
  | .readUnmapped addr => !onPort cfg addr
  | .writeStatus _ => true
  | .writeScanline _ => true
  | .writeCompare _ => true
  | .writeUnmapped addr _ => !onPort cfg addr
  | .init => true
  | .invalid w => reservedNonZero w
  | .tOamXfer => true
  | .tXferHblank => true
  | .tHblankOam => true
  | .tHblankVblank => true
  | .tVblankLine => true
  | .tVblankOam => true
  | .statModeEntry _ => true
  | .coincidenceCheck => true
  | .decodeScanline _ => true
  | .completeFrame => true

end Sys2Proof
end

