-- ==== Sys2Proof/Decode.lean ====
section
/-! DEFINITION. The decoder, total on every 26-bit word (30_encoding.md R87), and after it the encoder written from
R81 to R85. -/

namespace Sys2Proof

/-- kind = w[25:24] (30_encoding.md R85). -/
def TxWord.kind (w : TxWord) : BitVec 2 := w.extractLsb' 24 2

/-- addr = w[23:8] (30_encoding.md R85). -/
def TxWord.addr (w : TxWord) : Address := w.extractLsb' 8 16

/-- data = w[7:0] (30_encoding.md R85). -/
def TxWord.data (w : TxWord) : Byte := w.extractLsb' 0 8

/-- w = kind ++ addr ++ data (30_encoding.md R85). -/
def TxWord.make (kind : BitVec 2) (addr : Address) (data : Byte) : TxWord := kind ++ addr ++ data

/-- The register port's address decode: the full address against the three parameters (41_register_port.md R140). -/
def portDecode (cfg : Config) (addr : Address) : PortReg :=
  if addr = cfg.statusAddr then .status
  else if addr = cfg.scanlineAddr then .scanline
  else if addr = cfg.compareAddr then .compare
  else .unmapped

/-- A READ word's verdict once its kind is 01 and its data field 0: rows 2 to 5 of 30_encoding.md R87. -/
def decodeRead (cfg : Config) (addr : Address) : Instr :=
  match portDecode cfg addr with
  | .status => .readStatus
  | .scanline => .readScanline
  | .compare => .readCompare
  | .unmapped => .readUnmapped addr

/-- A WRITE word's verdict: rows 6 to 9 of 30_encoding.md R87. -/
def decodeWrite (cfg : Config) (addr : Address) (v : Byte) : Instr :=
  match portDecode cfg addr with
  | .status => .writeStatus v
  | .scanline => .writeScanline v
  | .compare => .writeCompare v
  | .unmapped => .writeUnmapped addr v

/-- The decoder (30_encoding.md R87): exactly one verdict for every word. `n` is the count operand beside the word,
which only STEP reads (R90). A word with a reserved field that is not zero is INVALID (R89). -/
def decode (cfg : Config) (w : TxWord) (n : Int) : Instr :=
  if w.kind = 0b00#2 ∧ w.addr = 0 ∧ w.data = 0 then .step n
  else if w.kind = 0b01#2 ∧ w.data = 0 then decodeRead cfg w.addr
  else if w.kind = 0b10#2 then decodeWrite cfg w.addr w.data
  else if w.kind = 0b11#2 ∧ w.addr = 0 ∧ w.data = 0 then .init
  else .invalid w

/-- The encoder (30_encoding.md R81 to R85): the transaction word of an operation and its count operand (0 where no
count follows the word, R90). Internal operations have no word (R87). -/
def encode (cfg : Config) : Instr → Option (TxWord × Int)
  | .step n => some (TxWord.make 0b00#2 0 0, n)
  | .readStatus => some (TxWord.make 0b01#2 cfg.statusAddr 0, 0)
  | .readScanline => some (TxWord.make 0b01#2 cfg.scanlineAddr 0, 0)
  | .readCompare => some (TxWord.make 0b01#2 cfg.compareAddr 0, 0)
  | .readUnmapped addr => some (TxWord.make 0b01#2 addr 0, 0)
  | .writeStatus v => some (TxWord.make 0b10#2 cfg.statusAddr v, 0)
  | .writeScanline v => some (TxWord.make 0b10#2 cfg.scanlineAddr v, 0)
  | .writeCompare v => some (TxWord.make 0b10#2 cfg.compareAddr v, 0)
  | .writeUnmapped addr v => some (TxWord.make 0b10#2 addr v, 0)
  | .init => some (TxWord.make 0b11#2 0 0, 0)
  | .invalid w => some (w, 0)
  | .tOamXfer => none
  | .tXferHblank => none
  | .tHblankOam => none
  | .tHblankVblank => none
  | .tVblankLine => none
  | .tVblankOam => none
  | .statModeEntry _ => none
  | .coincidenceCheck => none
  | .decodeScanline _ => none
  | .completeFrame => none

/-- The number a table row's `nbits` bits spell; every bit above them is 0. -/
def tableWord (nbits w : Nat) : Nat := w % 2 ^ nbits

/-- The operation the decoder reads from a word numbered as spec/opcode_table.json numbers it, at the default
parameters, with a count operand of 0; none where a bit above bit 25 is set, since such a number is no transaction
word (30_encoding.md R85; log 17). -/
def decodeTableWord (nbits w : Nat) : Option Instr :=
  if tableWord nbits w < 2 ^ 26 then
    some (decode Config.defaults (BitVec.ofNat 26 (tableWord nbits w)) 0)
  else none

end Sys2Proof
end

