-- ==== Sys2Proof/Machine/State.lean ====
section
/-! DEFINITION. The state of the block and what the spec gives it around that record: the host bus, the event trace,
the bytes READs returned, the host's moves still to come and the parameters (10_state.md R20, R35, R39). -/

namespace Sys2Proof.Machine

/-- One line of 160 pixels, left to right (10_state.md R29). -/
abbrev Line := Vector Pixel 160

/-- The pixel buffer: 144 rows, top to bottom (10_state.md R29). -/
abbrev Buffer := Vector Line 144

/-- The host memory bus as address and byte pairs in canonical form: addresses strictly rising, none listed whose
byte is the one an unlisted address reads as (`Memory.wf`). -/
abbrev Memory := List Host.Cell

/-- The two interrupt lines (60_exceptions.md R207). -/
inductive IrqLine
  | vblank
  | stat
deriving DecidableEq, Repr

/-- Why a request was made (10_state.md R39). -/
inductive Cause
  | vblankEntry
  | modeEntry (m : Mode)
  | coincidence
deriving DecidableEq, Repr

/-- The three kinds of event of the trace (10_state.md R39). A frame is a snapshot of the buffer (43 R181). -/
inductive Event
  | irqReq (line : IrqLine) (cause : Cause)
  | busRd (addr : Address) (value : Byte)
  | frameReady (frame : Buffer)
deriving DecidableEq, Repr

/-- The block's two errors, each with the value it records (60_exceptions.md R201, R202). -/
inductive Error
  | unmappedRegister (addr : Address)
  | outOfRangeCycleCount (n : Int)
deriving DecidableEq, Repr

/-- The numeric fault codes (60_exceptions.md R201, R202). -/
def Error.code : Error → Nat
  | .unmappedRegister _ => 1
  | .outOfRangeCycleCount _ => 2

/-- The lifecycle status (10_state.md R32). -/
inductive Run
  | uninit
  | running
  | faulted (e : Error)
deriving DecidableEq, Repr

/-- One move of the host: a transaction word with its count operand (30_encoding.md R85), or one of the HOST actions
of R91 on its own bus, which are no transactions. -/
inductive HostMove
  | issue (w : TxWord) (n : Int)
  | busWrite (addr : Address) (v : Byte)
  | busFill (addr : Address) (len : Nat) (v : Byte)
  | clearIf
deriving DecidableEq, Repr

/-- The state: the record of 10_state.md R20, then the bus (R35), the trace (R39) and the model's own three fields
(log 1, log 5, log 12). -/
@[ext]
structure State where
  /-- display mode, STATUS bits 1:0 (R21) -/
  mode      : Mode
  /-- STATUS bit 3 (R24) -/
  enHblank  : Bool
  /-- STATUS bit 4 (R24) -/
  enVblank  : Bool
  /-- STATUS bit 5 (R24) -/
  enOam     : Bool
  /-- STATUS bit 6 (R24) -/
  enLyc     : Bool
  /-- STATUS bit 7 (R25) -/
  stat7     : Bool
  /-- coincidence flag, STATUS bit 2 (R26) -/
  coinc     : Bool
  /-- SCANLINE (R22) -/
  ly        : Nat
  /-- COMPARE (R23) -/
  lyc       : Byte
  /-- cycle accumulator (R28) -/
  acc       : Nat
  /-- pixel buffer (R29) -/
  buf       : Buffer
  /-- lifecycle status (R32) -/
  run       : Run
  /-- host memory bus (20_memory.md R50) -/
  bus       : Memory
  /-- event trace, oldest first (R39) -/
  trace     : List Event
  /-- bytes returned by READs, oldest first (log 12) -/
  returned  : List Byte
  /-- the host's moves to come, next first (log 1) -/
  hostQueue : List HostMove
  /-- the parameters, changed by no step (log 5) -/
  cfg       : Config
deriving DecidableEq, Repr

/-- Why the machine stops. -/
inductive Fault
  /-- Raised by every transaction and internal operation, and by an idle step, while `run = Faulted`: no later
  transaction has a step (60_exceptions.md R203; 93 U13). Safe: it is the spec's own stuck state. -/
  | stuck (e : Error)
deriving DecidableEq, Repr

/-- Why an operation has no meaning. -/
inductive Refusal
  /-- Raised by an arm of `exec` for an operation without a meaning yet. Safe. -/
  | notModelled (mnemonic : String)
  /-- Raised by INVALID: the word spells no transaction and is refused at the boundary (30_encoding.md R89). Safe. -/
  | invalidWord (w : TxWord)
  /-- Raised by every operation but INIT while `run = Uninit` (70_reset_and_hazards.md R231). Safe. -/
  | notInitialised
  /-- Raised by every operation under parameters the spec does not admit (20_memory.md R54; 00_scope.md R8, R10, R12;
  log 5). Safe. -/
  | configurationNotAdmitted
  /-- Raised by an internal transition applied outside its edge: another mode, too small an accumulator, or the other
  row's line (40_timing_controller.md R103 to R106: "Reached when ..."). Safe (log 9). -/
  | transitionNotReached
deriving DecidableEq, Repr

/-- Every pixel Light (10_state.md R38). -/
def blankBuffer : Buffer := Vector.replicate 144 (Vector.replicate 160 .light)

/-- The state INIT leaves, "Reset values" of 10_state.md R38, at the default parameters, with nothing on the bus,
traced, returned or queued (log 3, log 11, log 12, log 14). -/
def State.reset : State where
  mode      := .oam
  enHblank  := false
  enVblank  := false
  enOam     := false
  enLyc     := false
  stat7     := false
  coinc     := false
  ly        := 0
  lyc       := 0
  acc       := 0
  buf       := blankBuffer
  run       := .running
  bus       := []
  trace     := []
  returned  := []
  hostQueue := []
  cfg       := Config.defaults

/-- The state at power-on: Uninit (70_reset_and_hazards.md R235). Its other fields have no value in the spec; the
values written here are the model's and nothing can read them before INIT (log 4). -/
def State.powerOn : State := { State.reset with run := .uninit }

end Sys2Proof.Machine
end

