-- ==== Sys2Proof/Machine/Ops.lean ====
section
/-! DEFINITION. The named operations over the state: the bus, the interrupt-flag register, the trace, the bytes
returned, raising an error, and the order in which an operation's outcome is decided. -/

namespace Sys2Proof.Machine

/-- What an unlisted bus address reads as. DESIGN CHOICE: 0x00 (log 11). -/
def Memory.unlisted : Byte := 0

/-- The byte listed at a key. -/
def Memory.get : Memory → Nat → Byte
  | [], _ => Memory.unlisted
  | (k', v) :: m, k => if k' = k then v else Memory.get m k

/-- Store a byte at a key, keeping the canonical form. -/
def Memory.set : Memory → Nat → Byte → Memory
  | [], k, v => if v = Memory.unlisted then [] else [(k, v)]
  | (k', v') :: m, k, v =>
    if k < k' then
      if v = Memory.unlisted then (k', v') :: m else (k, v) :: (k', v') :: m
    else if k = k' then
      if v = Memory.unlisted then m else (k, v) :: m
    else (k', v') :: Memory.set m k v

/-- The canonical form: keys strictly rising, every key a u16, no byte listed that an unlisted address reads as. -/
abbrev Memory.wf (m : Memory) : Prop :=
  m.Pairwise (fun c d => c.1 < d.1) ∧ ∀ c ∈ m, c.1 < 65536 ∧ c.2 ≠ Memory.unlisted

/-- MemRead(addr, 1): the byte the bus holds at a u16 address (20_memory.md R52). -/
def Memory.read (m : Memory) (addr : Address) : Byte := m.get addr.toNat

/-- MemWrite(addr, 1, v) (00_scope.md R15). -/
def Memory.write (m : Memory) (addr : Address) (v : Byte) : Memory := m.set addr.toNat v

/-- Write `v` to `len` bytes from `addr` up, addresses taken mod 65536 (30_encoding.md R91; log 15). -/
def Memory.fill (m : Memory) (addr : Address) : Nat → Byte → Memory
  | 0, _ => m
  | len + 1, v => Memory.fill (m.write addr v) (addr + 1) len v

/-- Append events to the trace (10_state.md R39). -/
def emit (es : List Event) (s : State) : State := { s with trace := s.trace ++ es }

/-- The event of one BusRead (20_memory.md R52). -/
def busRdEvent (s : State) (addr : Address) : Event := .busRd addr (s.bus.read addr)

/-- The IF bit of a line (60_exceptions.md R207). -/
def irqBit (cfg : Config) : IrqLine → Fin 8
  | .vblank => cfg.ifVblankBit
  | .stat => cfg.ifStatBit

/-- IfSet(bit): `v | (1 << bit)` into IF; the read of IF is part of the primitive and is not traced (20_memory.md
R55; 95_test_vectors.md counts BusRd events without it). -/
def ifSet (bit : Fin 8) (s : State) : State :=
  { s with bus := s.bus.write s.cfg.ifAddr (s.bus.read s.cfg.ifAddr ||| (1#8 <<< bit.val)) }

/-- An interrupt request: set the line's IF bit and trace it (20_memory.md R55; 10_state.md R39). -/
def request (line : IrqLine) (cause : Cause) (s : State) : State :=
  emit [.irqReq line cause] (ifSet (irqBit s.cfg line) s)

/-- A READ's result handed to the host (30_encoding.md R82). -/
def returnByte (v : Byte) (s : State) : State := { s with returned := s.returned ++ [v] }

/-- Raise an error: the block saves the code and its value in `run` and changes nothing else (60_exceptions.md R203,
R204, R212). There is no return from it (R213). -/
def raise (e : Error) (s : State) : State := { s with run := .faulted e }

/-- IF lies at no address the block reads: not SCROLL-Y, not CONTROL, outside the map window and the tile window, all
mod 65536 (20_memory.md R54). -/
def ifApart (cfg : Config) : Bool :=
  cfg.ifAddr != cfg.scrollYAddr && cfg.ifAddr != cfg.controlAddr &&
  decide (1024 ≤ (cfg.ifAddr - cfg.mapBase).toNat) && decide (4096 ≤ (cfg.ifAddr - cfg.tileBase).toNat)

/-- The three port addresses are pairwise distinct (00_scope.md R8). -/
def portsDistinct (cfg : Config) : Bool :=
  cfg.statusAddr != cfg.scanlineAddr && cfg.statusAddr != cfg.compareAddr && cfg.scanlineAddr != cfg.compareAddr

/-- The parameters are ones the spec admits (00_scope.md R8, R10, R12; 20_memory.md R54). -/
def configAdmitted (cfg : Config) : Bool :=
  portsDistinct cfg && cfg.ifVblankBit != cfg.ifStatBit && ifApart cfg && cfg.resolve == Resolve.or

/-- Refuse parameters the spec does not admit (20_memory.md R54; log 5). -/
def whenAdmitted (s : State) (k : State → Host.Outcome State Fault Refusal) : Host.Outcome State Fault Refusal :=
  if configAdmitted s.cfg then k s else .refused .configurationNotAdmitted

/-- The order of 60_exceptions.md R205 for every operation but INIT and INVALID: refused while Uninit, stuck while
Faulted, otherwise its own rule. -/
def whenRunning (s : State) (k : State → Host.Outcome State Fault Refusal) : Host.Outcome State Fault Refusal :=
  whenAdmitted s fun s =>
    match s.run with
    | .uninit => .refused .notInitialised
    | .faulted e => .fault (.stuck e)
    | .running => k s

end Sys2Proof.Machine
end

