-- ==== Sys2Proof/Machine/Lifecycle.lean ====
section
/-! DEFINITION. INIT and the verdict INVALID (70_reset_and_hazards.md R230 to R232; 30_encoding.md R89). -/

namespace Sys2Proof.Machine

/-- INIT's assignments (70_reset_and_hazards.md R230). Bus, trace, returned bytes and the host's moves are not the
block's to reset: INIT touches no IF bit and emits nothing. -/
def initialise (s : State) : State :=
  { s with
    mode := .oam
    enHblank := false
    enVblank := false
    enOam := false
    enLyc := false
    stat7 := false
    coinc := false
    ly := 0
    lyc := 0
    acc := 0
    buf := blankBuffer
    run := .running }

/-- INIT: admitted from Uninit and Running, stuck from Faulted (70_reset_and_hazards.md R230, R232). -/
def execInit (s : State) : Host.Outcome State Fault Refusal :=
  whenAdmitted s fun s =>
    match s.run with
    | .faulted e => .fault (.stuck e)
    | .uninit => .next (initialise s)
    | .running => .next (initialise s)

/-- INVALID: refused at the boundary, before anything else is looked at (30_encoding.md R89; 60_exceptions.md R205). -/
def execInvalid (w : TxWord) (_s : State) : Host.Outcome State Fault Refusal := .refused (.invalidWord w)

end Sys2Proof.Machine
end

