-- ==== Sys2Proof/Machine/Operands.lean ====
section
/-! DEFINITION. The operand forms: the count of STEP, and the bus addresses and pixels the renderer forms
(42_renderer.md R163, R164, R166). -/

namespace Sys2Proof.Machine

/-- The guard of STEP's count: every count that is not a non-negative integer is rejected, never clamped
(60_exceptions.md R202). -/
def countInRange (n : Int) : Bool := 0 ≤ n

/-- The effective background row, `(line + SCY) mod 256` (42_renderer.md R163). -/
def backgroundRow (line : Nat) (scy : Byte) : Nat := (line + scy.toNat) % 256

/-- `map_addr(map_row, slot) = (MAP_BASE + 32 × map_row + slot) mod 65536` (42_renderer.md R163). -/
def mapAddr (cfg : Config) (mapRow slot : Nat) : Address := cfg.mapBase + BitVec.ofNat 16 (32 * mapRow + slot)

/-- `tile_addr(idx, sub_row) = (TILE_BASE + 16 × idx + 2 × sub_row) mod 65536`, idx unsigned (42_renderer.md R166). -/
def tileAddr (cfg : Config) (idx : Byte) (subRow : Nat) : Address :=
  cfg.tileBase + BitVec.ofNat 16 (16 * idx.toNat + 2 * subRow)

/-- The bit of a plane byte that column `col` reads (42_renderer.md R164). -/
def columnBit (cfg : Config) (col : Nat) : Nat :=
  match cfg.pixelOrder with
  | .msbFirst => 7 - col
  | .lsbFirst => col

/-- RESOLVE(a, b) (00_scope.md R12). -/
def resolvePixel (r : Resolve) (a b : Bool) : Pixel :=
  match a, b with
  | false, false => r.r00
  | false, true => r.r01
  | true, false => r.r10
  | true, true => r.r11

/-- unpack(p0, p1, col) (42_renderer.md R164). -/
def unpack (cfg : Config) (p0 p1 : Byte) (col : Nat) : Pixel :=
  resolvePixel cfg.resolve (p0.getLsbD (columnBit cfg col)) (p1.getLsbD (columnBit cfg col))

/-- Light = 0, Dark = 1 (10_state.md R31). -/
def pixelCode : Pixel → Nat
  | .light => 0
  | .dark => 1

/-- A frame as flat data: 23040 pixel codes in row-major order (43_frame_emission.md R182). -/
def framePayload (f : Buffer) : List Nat := f.toList.flatMap fun row => row.toList.map pixelCode

end Sys2Proof.Machine
end

