-- ==== Sys2Proof/Machine/Flags.lean ====
section
/-! DEFINITION. STATUS: its read value, what a write stores, the mask of a mode entry and the coincidence test
(10_state.md R21, R24 to R27; 40_timing_controller.md R111, R113). -/

namespace Sys2Proof.Machine

/-- The 2-bit code of a mode (10_state.md R21). -/
def modeCode : Mode → BitVec 2
  | .hblank => 0b00
  | .vblank => 0b01
  | .oam => 0b10
  | .xfer => 0b11

/-- What STATUS bit 7 reads as (10_state.md R25, R27). -/
def statusBit7 (s : State) : Bool :=
  match s.cfg.statBit7 with
  | .stored => s.stat7
  | .readsZero => false
  | .readsOne => true

/-- status_value(s) = `b7 ++ en_lyc ++ en_oam ++ en_vblank ++ en_hblank ++ coinc ++ mode[1:0]` (10_state.md R27). -/
def statusValue (s : State) : Byte :=
  BitVec.ofBool (statusBit7 s) ++ BitVec.ofBool s.enLyc ++ BitVec.ofBool s.enOam ++ BitVec.ofBool s.enVblank ++
    BitVec.ofBool s.enHblank ++ BitVec.ofBool s.coinc ++ modeCode s.mode

/-- The value STATUS bit 7 holds after a write of `v`: stored only under STAT_BIT7 = Stored (10_state.md R25). -/
def storedBit7 (v : Byte) (s : State) : Bool :=
  match s.cfg.statBit7 with
  | .stored => v.getLsbD 7
  | .readsZero => s.stat7
  | .readsOne => s.stat7

/-- WRITE_STATUS(v): the four enables, and bit 7 under Stored; v[2:0] is discarded (41_register_port.md R144, R145). -/
def storeStatus (v : Byte) (s : State) : State :=
  { s with
    enHblank := v.getLsbD 3
    enVblank := v.getLsbD 4
    enOam := v.getLsbD 5
    enLyc := v.getLsbD 6
    stat7 := storedBit7 v s }

/-- Whether entering `m` requests STAT: the enable of the entered mode, with the OAM-entry quirk
(40_timing_controller.md R111, R112). -/
def modeEntryMask (m : Mode) (s : State) : Bool :=
  match m with
  | .hblank => s.enHblank
  | .vblank => s.enVblank
  | .oam => s.enOam || (s.cfg.oamEntryQuirk && s.enVblank)
  | .xfer => false

/-- The value READ SCANLINE returns, `zext_8(ly)` (41_register_port.md R141). -/
def scanlineValue (s : State) : Byte := BitVec.ofNat 8 s.ly

/-- The coincidence test `zext_8(ly) = lyc` (40_timing_controller.md R113). -/
def coincides (s : State) : Bool := scanlineValue s == s.lyc

end Sys2Proof.Machine
end

