-- ==== Sys2Proof/Machine/RegisterPort.lean ====
section
/-! DEFINITION. The register port: READ and WRITE of STATUS, SCANLINE and COMPARE, and the unmapped addresses
(41_register_port.md R140 to R149). -/

namespace Sys2Proof.Machine

/-- READ_STATUS (41_register_port.md R142). -/
def execReadStatus (s : State) : Host.Outcome State Fault Refusal :=
  whenRunning s fun s => .next (returnByte (statusValue s) s)

/-- READ_SCANLINE (41_register_port.md R141). -/
def execReadScanline (s : State) : Host.Outcome State Fault Refusal :=
  whenRunning s fun s => .next (returnByte (scanlineValue s) s)

/-- READ_COMPARE (41_register_port.md R143). -/
def execReadCompare (s : State) : Host.Outcome State Fault Refusal :=
  whenRunning s fun s => .next (returnByte s.lyc s)

/-- READ_UNMAPPED: raises UnmappedRegister and returns nothing (41_register_port.md R148; 60_exceptions.md R201). -/
def execReadUnmapped (addr : Address) (s : State) : Host.Outcome State Fault Refusal :=
  whenRunning s fun s => .next (raise (.unmappedRegister addr) s)

/-- WRITE_STATUS (41_register_port.md R144, R145). -/
def execWriteStatus (v : Byte) (s : State) : Host.Outcome State Fault Refusal :=
  whenRunning s fun s => .next (storeStatus v s)

/-- WRITE_SCANLINE: the value is ignored and ly becomes 0 (41_register_port.md R146). -/
def execWriteScanline (_v : Byte) (s : State) : Host.Outcome State Fault Refusal :=
  whenRunning s fun s => .next { s with ly := 0 }

/-- WRITE_COMPARE (41_register_port.md R147). -/
def execWriteCompare (v : Byte) (s : State) : Host.Outcome State Fault Refusal :=
  whenRunning s fun s => .next { s with lyc := v }

/-- WRITE_UNMAPPED: raises UnmappedRegister and stores nothing (41_register_port.md R148; 60_exceptions.md R201). -/
def execWriteUnmapped (addr : Address) (_v : Byte) (s : State) : Host.Outcome State Fault Refusal :=
  whenRunning s fun s => .next (raise (.unmappedRegister addr) s)

end Sys2Proof.Machine
end

