-- ==== Sys2Proof/Machine/Renderer.lean ====
section
/-! DEFINITION. The scanline renderer: DECODE_SCANLINE (42_renderer.md R160 to R171). Bus reads change nothing on the
bus, so a decode's pixels are a function of the bus and its reads are appended to the trace in the order of R167. -/

namespace Sys2Proof.Machine

/-- What one tile slot fetches: the map entry's address and byte, the tile row's address and its two plane bytes. -/
structure SlotFetch where
  mapAt  : Address
  idx    : Byte
  tileAt : Address
  p0     : Byte
  p1     : Byte
deriving DecidableEq, Repr

/-- Fetch slot `slot` of background row `row` (42_renderer.md R160, R163, R166). -/
def fetchSlot (cfg : Config) (bus : Memory) (row slot : Nat) : SlotFetch :=
  let mapAt := mapAddr cfg (row / 8) slot
  let idx := bus.read mapAt
  let tileAt := tileAddr cfg idx (row % 8)
  { mapAt, idx, tileAt, p0 := bus.read tileAt, p1 := bus.read (tileAt + 1) }

/-- The three reads of a slot, in the order of 42_renderer.md R167. -/
def slotReads (f : SlotFetch) : List Event := [.busRd f.mapAt f.idx, .busRd f.tileAt f.p0, .busRd (f.tileAt + 1) f.p1]

/-- The SCROLL-Y byte (42_renderer.md R163). -/
def scrollY (cfg : Config) (bus : Memory) : Byte := bus.read cfg.scrollYAddr

/-- The reads of one decode: SCY, then slots 0 to 19 (42_renderer.md R167). -/
def lineReads (cfg : Config) (bus : Memory) (line : Nat) : List Event :=
  .busRd cfg.scrollYAddr (scrollY cfg bus) ::
    (List.range 20).flatMap fun slot => slotReads (fetchSlot cfg bus (backgroundRow line (scrollY cfg bus)) slot)

/-- The pixel of column `x`: column `x mod 8` of slot `x div 8` (42_renderer.md R162, R165). -/
def linePixel (cfg : Config) (bus : Memory) (line x : Nat) : Pixel :=
  let f := fetchSlot cfg bus (backgroundRow line (scrollY cfg bus)) (x / 8)
  unpack cfg f.p0 f.p1 (x % 8)

/-- The 160 pixels of a line (42_renderer.md R162). -/
def linePixels (cfg : Config) (bus : Memory) (line : Nat) : Line :=
  Vector.ofFn fun x => linePixel cfg bus line x.val

/-- clear_buffer (42_renderer.md R161). -/
def clearBuffer (s : State) : State := { s with buf := blankBuffer }

/-- Overwrite one row of the buffer and trace the reads that gave it (42_renderer.md R165, R167). -/
def renderLine (line : Fin 144) (s : State) : State :=
  emit (lineReads s.cfg s.bus line) { s with buf := s.buf.set line (linePixels s.cfg s.bus line) }

/-- decode_scanline(line): nothing for a line of 144 or more; line 0 clears the whole buffer first (42_renderer.md
R160, R161). -/
def decodeScanline (line : Nat) (s : State) : State :=
  if h : line < 144 then renderLine ⟨line, h⟩ (if line = 0 then clearBuffer s else s) else s

/-- DECODE_SCANLINE (42_renderer.md R160). -/
def execDecodeScanline (line : Nat) (s : State) : Host.Outcome State Fault Refusal :=
  whenRunning s fun s => .next (decodeScanline line s)

end Sys2Proof.Machine
end

