-- ==== Sys2Proof/Machine/Frame.lean ====
section
/-! DEFINITION. The frame-emission sequencer: COMPLETE_FRAME (43_frame_emission.md R180 to R185). -/

namespace Sys2Proof.Machine

/-- CONTROL bit 7, the display enable (43_frame_emission.md R180). -/
def displayEnabled (s : State) : Bool := (s.bus.read s.cfg.controlAddr).getLsbD 7

/-- complete_frame: one read of CONTROL, and a frame-ready event with a snapshot of the buffer if its bit 7 is set
(43_frame_emission.md R180, R181). -/
def completeFrame (s : State) : State :=
  emit (busRdEvent s s.cfg.controlAddr :: if displayEnabled s then [.frameReady s.buf] else []) s

/-- COMPLETE_FRAME (43_frame_emission.md R180). -/
def execCompleteFrame (s : State) : Host.Outcome State Fault Refusal :=
  whenRunning s fun s => .next (completeFrame s)

end Sys2Proof.Machine
end

