-- ==== Sys2Proof/Machine/Timing.lean ====
section
/-! DEFINITION. The timing controller: STEP, the mode FSM's six edges, the mode-entry STAT request and the
coincidence check (40_timing_controller.md R100 to R119). -/

namespace Sys2Proof.Machine

/-- threshold(m) (40_timing_controller.md R102). -/
def threshold : Mode → Nat
  | .oam => 80
  | .xfer => 172
  | .hblank => 204
  | .vblank => 456

/-- stat_mode_entry(m) (40_timing_controller.md R111). -/
def statModeEntry (m : Mode) (s : State) : State :=
  if modeEntryMask m s then request .stat (.modeEntry m) s else s

/-- enter(m) (40_timing_controller.md R110). -/
def enter (m : Mode) (s : State) : State := statModeEntry m { s with mode := m }

/-- coincidence_check (40_timing_controller.md R113). -/
def coincidenceCheck (s : State) : State :=
  if coincides s then
    let s := { s with coinc := true }
    if s.enLyc then request .stat .coincidence s else s
  else { s with coinc := false }

/-- Each edge first subtracts the threshold of the mode being left (10_state.md R28; 40_timing_controller.md R102;
log 9). -/
def leaveMode (s : State) : State := { s with acc := s.acc - threshold s.mode }

/-- transition_oam (40_timing_controller.md R103). -/
def transitionOam (s : State) : State := enter .xfer s

/-- transition_xfer: enter H-Blank, then decode the line just transferred (40_timing_controller.md R104). -/
def transitionXfer (s : State) : State :=
  let s := enter .hblank s
  decodeScanline s.ly s

/-- The V-Blank side of transition_hblank, with ly already incremented (40_timing_controller.md R105). -/
def enterVblank (s : State) : State :=
  completeFrame (statModeEntry .vblank (request .vblank .vblankEntry { s with mode := .vblank }))

/-- transition_hblank (40_timing_controller.md R105). -/
def transitionHblank (s : State) : State :=
  let s := { s with ly := s.ly + 1 }
  if s.ly = 144 then enterVblank s else enter .oam s

/-- transition_vblank (40_timing_controller.md R106). -/
def transitionVblank (s : State) : State :=
  let s := { s with ly := s.ly + 1 }
  if 153 < s.ly then enter .oam { s with ly := 0 } else s

/-- The transition of the current mode: the `case` of 40_timing_controller.md R100. -/
def transition (s : State) : State :=
  match s.mode with
  | .oam => transitionOam s
  | .xfer => transitionXfer s
  | .hblank => transitionHblank s
  | .vblank => transitionVblank s

/-- One iteration of the loop of 40_timing_controller.md R100: subtract, then one transition. -/
def advance (s : State) : State := transition (leaveMode s)

/-- The transition loop with a bound on its iterations (40_timing_controller.md R102). -/
def transitionLoop : Nat → State → State
  | 0, s => s
  | fuel + 1, s => if threshold s.mode ≤ s.acc then transitionLoop fuel (advance s) else s

/-- The transition loop. Every iteration takes at least 80 off the accumulator, so the accumulator bounds their
number (40_timing_controller.md R108; log 20). -/
def runTransitions (s : State) : State := transitionLoop s.acc s

/-- STEP of a non-negative count (40_timing_controller.md R100, R101). -/
def stepCycles (n : Nat) (s : State) : State :=
  coincidenceCheck (runTransitions { s with acc := s.acc + n })

/-- STEP: a count out of range raises OutOfRangeCycleCount before any effect (40_timing_controller.md R100;
60_exceptions.md R202). -/
def execStep (n : Int) (s : State) : Host.Outcome State Fault Refusal :=
  whenRunning s fun s =>
    if countInRange n then .next (stepCycles n.toNat s) else .next (raise (.outOfRangeCycleCount n) s)

/-- An internal transition has a step only at its edge (40_timing_controller.md R103 to R106; log 9). -/
def whenReached (edge : Bool) (s : State) (k : State → State) : Host.Outcome State Fault Refusal :=
  if edge then .next (k s) else .refused .transitionNotReached

/-- The accumulator has reached the threshold of mode `m`, which is the current mode. -/
def atEdge (m : Mode) (s : State) : Bool := s.mode == m && decide (threshold m ≤ s.acc)

/-- T_OAM_XFER (40_timing_controller.md R103). -/
def execTOamXfer (s : State) : Host.Outcome State Fault Refusal :=
  whenRunning s fun s => whenReached (atEdge .oam s) s fun s => transitionOam (leaveMode s)

/-- T_XFER_HBLANK (40_timing_controller.md R104). -/
def execTXferHblank (s : State) : Host.Outcome State Fault Refusal :=
  whenRunning s fun s => whenReached (atEdge .xfer s) s fun s => transitionXfer (leaveMode s)

/-- T_HBLANK_OAM: the next line is not 144 (40_timing_controller.md R105). -/
def execTHblankOam (s : State) : Host.Outcome State Fault Refusal :=
  whenRunning s fun s => whenReached (atEdge .hblank s && s.ly + 1 != 144) s fun s => transitionHblank (leaveMode s)

/-- T_HBLANK_VBLANK: the next line is 144 (40_timing_controller.md R105). -/
def execTHblankVblank (s : State) : Host.Outcome State Fault Refusal :=
  whenRunning s fun s => whenReached (atEdge .hblank s && s.ly + 1 == 144) s fun s => transitionHblank (leaveMode s)

/-- T_VBLANK_LINE: the next line is at most 153 (40_timing_controller.md R106). -/
def execTVblankLine (s : State) : Host.Outcome State Fault Refusal :=
  whenRunning s fun s =>
    whenReached (atEdge .vblank s && decide (s.ly + 1 ≤ 153)) s fun s => transitionVblank (leaveMode s)

/-- T_VBLANK_OAM: the next line exceeds 153 (40_timing_controller.md R106). -/
def execTVblankOam (s : State) : Host.Outcome State Fault Refusal :=
  whenRunning s fun s =>
    whenReached (atEdge .vblank s && decide (153 < s.ly + 1)) s fun s => transitionVblank (leaveMode s)

/-- STAT_MODE_ENTRY for the mode just entered (40_timing_controller.md R111; log 16). -/
def execStatModeEntry (m : Mode) (s : State) : Host.Outcome State Fault Refusal :=
  whenRunning s fun s => .next (statModeEntry m s)

/-- COINCIDENCE_CHECK (40_timing_controller.md R113). -/
def execCoincidenceCheck (s : State) : Host.Outcome State Fault Refusal :=
  whenRunning s fun s => .next (coincidenceCheck s)

end Sys2Proof.Machine
end

