-- ==== Sys2Proof/Machine/Dispatch.lean ====
section
/-! DEFINITION. One arm per operation of spec/opcode_table.json. -/

namespace Sys2Proof.Machine

def exec (i : Instr) (s : State) : Host.Outcome State Fault Refusal :=
  match i with
  | .step n => Sys2Proof.Machine.execStep n s
  | .readStatus => Sys2Proof.Machine.execReadStatus s
  | .readScanline => Sys2Proof.Machine.execReadScanline s
  | .readCompare => Sys2Proof.Machine.execReadCompare s
  | .readUnmapped addr => Sys2Proof.Machine.execReadUnmapped addr s
  | .writeStatus v => Sys2Proof.Machine.execWriteStatus v s
  | .writeScanline v => Sys2Proof.Machine.execWriteScanline v s
  | .writeCompare v => Sys2Proof.Machine.execWriteCompare v s
  | .writeUnmapped addr v => Sys2Proof.Machine.execWriteUnmapped addr v s
  | .init => Sys2Proof.Machine.execInit s
  | .invalid w => Sys2Proof.Machine.execInvalid w s
  | .tOamXfer => Sys2Proof.Machine.execTOamXfer s
  | .tXferHblank => Sys2Proof.Machine.execTXferHblank s
  | .tHblankOam => Sys2Proof.Machine.execTHblankOam s
  | .tHblankVblank => Sys2Proof.Machine.execTHblankVblank s
  | .tVblankLine => Sys2Proof.Machine.execTVblankLine s
  | .tVblankOam => Sys2Proof.Machine.execTVblankOam s
  | .statModeEntry m => Sys2Proof.Machine.execStatModeEntry m s
  | .coincidenceCheck => Sys2Proof.Machine.execCoincidenceCheck s
  | .decodeScanline line => Sys2Proof.Machine.execDecodeScanline line s
  | .completeFrame => Sys2Proof.Machine.execCompleteFrame s

end Sys2Proof.Machine
end

