-- ==== Sys2Proof/Machine/HostMoves.lean ====
section
/-! DEFINITION. The host's moves between and at transactions (00_scope.md R14; 30_encoding.md R80, R91; log 1). -/

namespace Sys2Proof.Machine

/-- `HOST BUS[addr] <- v` (30_encoding.md R91). -/
def hostWrite (addr : Address) (v : Byte) (s : State) : State := { s with bus := s.bus.write addr v }

/-- `HOST FILL addr, len, v` (30_encoding.md R91). -/
def hostFill (addr : Address) (len : Nat) (v : Byte) (s : State) : State := { s with bus := s.bus.fill addr len v }

/-- `HOST CLEAR_IF` (30_encoding.md R91): IF becomes 0x00 (log 15). -/
def hostClearIf (s : State) : State := { s with bus := s.bus.write s.cfg.ifAddr 0 }

/-- The host has no move to make: the block waits, unless it is Faulted, which is never a normal end of a run
(60_exceptions.md R203; log 2). -/
def idle (s : State) : Host.Outcome State Fault Refusal :=
  match s.run with
  | .uninit => .next s
  | .running => .next s
  | .faulted e => .fault (.stuck e)

/-- Make one move of the host: an issued word is decoded and executed as one atomic transaction (00_scope.md R13). -/
def perform (m : HostMove) (s : State) : Host.Outcome State Fault Refusal :=
  match m with
  | .issue w n => exec (decode s.cfg w n) s
  | .busWrite addr v => .next (hostWrite addr v s)
  | .busFill addr len v => .next (hostFill addr len v s)
  | .clearIf => .next (hostClearIf s)

/-- Take the next move off the queue and make it. -/
def nextMove (s : State) : Host.Outcome State Fault Refusal :=
  match s.hostQueue with
  | [] => idle s
  | m :: rest => perform m { s with hostQueue := rest }

/-- The pseudo-transactions: other spellings of transactions, with no word of their own (30_encoding.md R92). -/
inductive Pseudo
  | stepLine
  | stepFrame
  | resetLy
deriving DecidableEq, Repr

/-- The transaction a pseudo-transaction expands to: `STEP 456`, `STEP 70224`, `WRITE SCANLINE, 0` (30_encoding.md
R92). -/
def expand (cfg : Config) : Pseudo → HostMove
  | .stepLine => .issue (TxWord.make 0b00#2 0 0) 456
  | .stepFrame => .issue (TxWord.make 0b00#2 0 0) 70224
  | .resetLy => .issue (TxWord.make 0b10#2 cfg.scanlineAddr 0) 0

/-- Put a transaction at the head of the host's moves. -/
def issueFirst (w : TxWord) (n : Int) (s : State) : State := { s with hostQueue := .issue w n :: s.hostQueue }

end Sys2Proof.Machine
end

