-- ==== Sys2Proof/Machine/Step.lean ====
section
/-! DEFINITION. One step of the machine: the host's next move. -/

namespace Sys2Proof.Machine

/-- One step (00_scope.md R13): a transaction, or a change the host makes to its bus between transactions (R14). -/
def step (s : State) : Host.Outcome State Fault Refusal := nextMove s

/-- `s` with the transaction that a table word spells, with count 0, as the host's next move (log 17). -/
def State.withFetchWord (s : State) (nbits w : Nat) : State := issueFirst (BitVec.ofNat 26 (tableWord nbits w)) 0 s

end Sys2Proof.Machine
end

