-- ==== Sys2Proof/Safety.lean ====
section
/-! DEFINITION. What claims are stated in: when an operation executes, the invariants of 10_state.md R36, the edge that
is due, and counts over the trace. -/

namespace Sys2Proof.Machine

/-- The block executes operations: initialised, not faulted, parameters admitted (60_exceptions.md R205). -/
abbrev Ready (s : State) : Prop := configAdmitted s.cfg = true ∧ s.run = .running

/-- The invariants INV1, INV2 and INV3 of 10_state.md R36, from INIT on (an error keeps them, 60_exceptions.md R204). -/
abbrev TimingInv (s : State) : Prop :=
  s.run ≠ .uninit → s.ly ≤ 153 ∧ s.acc < threshold s.mode ∧ (s.mode ≠ .vblank → s.ly ≤ 143)

/-- A line start: OAM-Scan with an empty accumulator (40_timing_controller.md R116). -/
abbrev LineStart (s : State) : Prop := s.mode = .oam ∧ s.acc = 0

/-- The operation is one of the FSM's edges (40_timing_controller.md R103 to R106). -/
def isEdge : Instr → Bool
  | .tOamXfer | .tXferHblank | .tHblankOam | .tHblankVblank | .tVblankLine | .tVblankOam => true
  | .step _ | .readStatus | .readScanline | .readCompare | .readUnmapped _ | .writeStatus _ | .writeScanline _
  | .writeCompare _ | .writeUnmapped _ _ | .init | .invalid _ | .statModeEntry _ | .coincidenceCheck
  | .decodeScanline _ | .completeFrame => false

/-- The operation has no word: the host cannot issue it (30_encoding.md R80). -/
def isInternal : Instr → Bool
  | .tOamXfer | .tXferHblank | .tHblankOam | .tHblankVblank | .tVblankLine | .tVblankOam | .statModeEntry _
  | .coincidenceCheck | .decodeScanline _ | .completeFrame => true
  | .step _ | .readStatus | .readScanline | .readCompare | .readUnmapped _ | .writeStatus _ | .writeScanline _
  | .writeCompare _ | .writeUnmapped _ _ | .init | .invalid _ => false

/-- The verdict INVALID. -/
def isInvalid : Instr → Bool
  | .invalid _ => true
  | .step _ | .readStatus | .readScanline | .readCompare | .readUnmapped _ | .writeStatus _ | .writeScanline _
  | .writeCompare _ | .writeUnmapped _ _ | .init | .tOamXfer | .tXferHblank | .tHblankOam | .tHblankVblank
  | .tVblankLine | .tVblankOam | .statModeEntry _ | .coincidenceCheck | .decodeScanline _ | .completeFrame => false

/-- Execute operations one after another, stopping at the first fault or refusal. -/
def execAll : List Instr → State → Host.Outcome State Fault Refusal
  | [], s => .next s
  | i :: is, s =>
    match exec i s with
    | .next t => execAll is t
    | .fault r => .fault r
    | .refused r => .refused r

/-- The event is a coincidence request (10_state.md R39). -/
def isCoincidence : Event → Bool
  | .irqReq .stat .coincidence => true
  | _ => false

/-- The event is a vertical-blank request. -/
def isVblankRequest : Event → Bool
  | .irqReq .vblank _ => true
  | _ => false

/-- The event is a frame-ready event. -/
def isFrame : Event → Bool
  | .frameReady _ => true
  | _ => false

/-- The event is a bus read. -/
def isBusRead : Event → Bool
  | .busRd _ _ => true
  | _ => false

/-- The event is a bus read of one address. -/
def isReadOf (addr : Address) : Event → Bool
  | .busRd a _ => a == addr
  | _ => false

/-- The background pixel of (line, x) as 42_renderer.md R163 to R166 and 00_scope.md R12 give it, in plain arithmetic
on addresses mod 65536: dark iff either plane bit of the column is set. Written apart from the renderer's own
functions, so that claims compare the two. -/
def backgroundDark (cfg : Config) (bus : Memory) (line x : Nat) : Bool :=
  let row := (line + (bus.read cfg.scrollYAddr).toNat) % 256
  let idx := (bus.read (BitVec.ofNat 16 (cfg.mapBase.toNat + 32 * (row / 8) + x / 8))).toNat
  let tileAt := cfg.tileBase.toNat + 16 * idx + 2 * (row % 8)
  let bit := if cfg.pixelOrder = .msbFirst then 7 - x % 8 else x % 8
  (bus.read (BitVec.ofNat 16 tileAt)).getLsbD bit || (bus.read (BitVec.ofNat 16 (tileAt + 1))).getLsbD bit

/-- The pixel for a dark bit (42_renderer.md R164). -/
def shade (isDark : Bool) : Pixel := if isDark then .dark else .light

end Sys2Proof.Machine
end

