-- ==== Sys2Proof/Certificates/Slice0/Obligations.lean ====
section
/-! DEFINITION. The statements about the block, for the provers. Each docstring names the rules of spec/ it rests on;
"model's choice" marks what a log entry of notes/assumptions decides. -/

open Sys2Proof Sys2Proof.Machine

/-! ### Encoding -/

/-- 30_encoding.md R81 to R87: decoding the word of a well-formed operation gives it back, every operand at every
value, for every choice of pairwise distinct port addresses. -/
def Obligations.DecodeOfEncodeIsTheOperation : Prop :=
  ∀ (cfg : Config) (i : Instr) (w : TxWord) (n : Int),
    portsDistinct cfg = true → WellFormed cfg i = true → encode cfg i = some (w, n) → decode cfg w n = i

/-- 30_encoding.md R87, R90: every word decodes to an operation with a word, encoding it gives the word back, the count
is kept by STEP alone (word 0), and the operation is well formed unless it is a STEP of a negative count. -/
def Obligations.EncodeOfDecodeIsTheWord : Prop :=
  ∀ (cfg : Config) (w : TxWord) (n : Int),
    encode cfg (decode cfg w n) = some (w, if w = 0 then n else 0) ∧
      (WellFormed cfg (decode cfg w n) = true ↔ (w = 0 → 0 ≤ n))

/-- 30_encoding.md R89: the verdict is INVALID exactly when a reserved field (R85) is not zero, and it names the word. -/
def Obligations.InvalidExactlyWhenReservedNonZero : Prop :=
  ∀ (cfg : Config) (w : TxWord) (n : Int),
    (reservedNonZero w = true ↔ ∃ w', decode cfg w n = .invalid w') ∧
      (∀ w', decode cfg w n = .invalid w' → w' = w)

/-- 41_register_port.md R140: the register port decodes the full address against its three parameters, with no partial
decoding, mirroring or aliasing; every other address is unmapped. -/
def Obligations.PortDecodesTheFullAddress : Prop :=
  ∀ (cfg : Config) (a : Address) (v : Byte), portsDistinct cfg = true →
    (decodeRead cfg a = .readStatus ↔ a = cfg.statusAddr) ∧
    (decodeRead cfg a = .readScanline ↔ a = cfg.scanlineAddr) ∧
    (decodeRead cfg a = .readCompare ↔ a = cfg.compareAddr) ∧
    (decodeRead cfg a = .readUnmapped a ↔ a ≠ cfg.statusAddr ∧ a ≠ cfg.scanlineAddr ∧ a ≠ cfg.compareAddr) ∧
    (decodeWrite cfg a v = .writeStatus v ↔ a = cfg.statusAddr) ∧
    (decodeWrite cfg a v = .writeScanline v ↔ a = cfg.scanlineAddr) ∧
    (decodeWrite cfg a v = .writeCompare v ↔ a = cfg.compareAddr) ∧
    (decodeWrite cfg a v = .writeUnmapped a v ↔ a ≠ cfg.statusAddr ∧ a ≠ cfg.scanlineAddr ∧ a ≠ cfg.compareAddr)

/-- Words written out in 30_encoding.md R92 and 95_test_vectors.md 2.8, at the default addresses. A sanity check. -/
def Obligations.WordsOfTheSpecDecode : Prop :=
  decodeTableWord 32 0x0000000 = some (.step 0) ∧
  decodeTableWord 32 0x1FF4100 = some .readStatus ∧
  decodeTableWord 32 0x1FF4400 = some .readScanline ∧
  decodeTableWord 32 0x1FF4200 = some (.readUnmapped 0xFF42) ∧
  decodeTableWord 32 0x2FF4140 = some (.writeStatus 0x40) ∧
  decodeTableWord 32 0x2FF4590 = some (.writeCompare 0x90) ∧
  decodeTableWord 32 0x3000000 = some .init ∧
  decodeTableWord 32 0x3000001 = some (.invalid 0x3000001)

/-! ### The step and the host's moves -/

/-- 00_scope.md R13 (model's choice of the queue: log 1, log 17): the step that meets an issued word is exec of the
decoded operation on the state without that move; a table word placed by withFetchWord runs as the very next step. -/
def Obligations.StepExecutesTheDecodedTransaction : Prop :=
  (∀ (s : State) (w : TxWord) (n : Int) (rest : List HostMove), s.hostQueue = .issue w n :: rest →
    step s = exec (decode s.cfg w n) { s with hostQueue := rest }) ∧
  (∀ (s : State) (nbits w : Nat) (i : Instr), s.cfg = Config.defaults → decodeTableWord nbits w = some i →
    step (s.withFetchWord nbits w) = exec i s)

/-- 00_scope.md R14, 30_encoding.md R91 (fill and clear: log 15): a host action on the bus is a step that writes exactly
the bytes it names and leaves the block alone. A fill covers the addresses from `a` up, mod 65536. -/
def Obligations.HostActionsWriteOnlyTheirBytes : Prop :=
  ∀ (s : State) (rest : List HostMove), s.bus.wf →
    (∀ (a : Address) (v : Byte), s.hostQueue = .busWrite a v :: rest →
      ∃ t, step s = .next t ∧ t = { s with hostQueue := rest, bus := t.bus } ∧
        ∀ b, t.bus.read b = if b = a then v else s.bus.read b) ∧
    (∀ (a : Address) (len : Nat) (v : Byte), s.hostQueue = .busFill a len v :: rest →
      ∃ t, step s = .next t ∧ t = { s with hostQueue := rest, bus := t.bus } ∧
        ∀ b, t.bus.read b = if (b - a).toNat < len then v else s.bus.read b) ∧
    (s.hostQueue = .clearIf :: rest →
      ∃ t, step s = .next t ∧ t = { s with hostQueue := rest, bus := t.bus } ∧
        ∀ b, t.bus.read b = if b = s.cfg.ifAddr then 0 else s.bus.read b)

/-- Model's choice, log 2: with no move to make the block waits unchanged, but a faulted block has no step. -/
def Obligations.EmptyQueueWaitsUnlessFaulted : Prop :=
  ∀ s : State, s.hostQueue = [] →
    ((∀ e, s.run ≠ .faulted e) → step s = .next s) ∧ (∀ e, s.run = .faulted e → step s = .fault (.stuck e))

/-! ### Lifecycle and errors -/

/-- 70_reset_and_hazards.md R230, 10_state.md R38: INIT sets every field of the block, from Uninit and from Running,
whatever the fields held, and leaves bus, trace, returned bytes, host moves and parameters alone. -/
def Obligations.InitSetsEveryBlockField : Prop :=
  ∀ s : State, configAdmitted s.cfg = true → s.run = .uninit ∨ s.run = .running →
    ∃ t, exec .init s = .next t ∧
      t = { s with
        mode := .oam, enHblank := false, enVblank := false, enOam := false, enLyc := false, stat7 := false,
        coinc := false, ly := 0, lyc := 0, acc := 0, run := .running, buf := t.buf } ∧
      ∀ y x (hy : y < 144) (hx : x < 160), t.buf[y][x] = .light

/-- 70_reset_and_hazards.md R231: before the first INIT every operation but INIT is refused (an INVALID word is refused
by its own name, 60_exceptions.md R205). -/
def Obligations.OnlyInitRunsBeforeInit : Prop :=
  ∀ (s : State) (i : Instr), configAdmitted s.cfg = true → s.run = .uninit → i ≠ .init → isInvalid i = false →
    exec i s = .refused .notInitialised

/-- 60_exceptions.md R203, 70_reset_and_hazards.md R232: Faulted is absorbing. No operation has a step, INIT included. -/
def Obligations.FaultedBlockIsStuck : Prop :=
  ∀ (s : State) (i : Instr) (e : Error), configAdmitted s.cfg = true → s.run = .faulted e → isInvalid i = false →
    exec i s = .fault (.stuck e)

/-- 30_encoding.md R89, 60_exceptions.md R205 (1): a word with a reserved field that is not zero is refused at the
boundary, in every state. -/
def Obligations.InvalidWordIsRefusedInEveryState : Prop :=
  ∀ (s : State) (w : TxWord) (n : Int), reservedNonZero w = true →
    exec (.invalid w) s = .refused (.invalidWord w) ∧ exec (decode s.cfg w n) s = .refused (.invalidWord w)

/-- 20_memory.md R54, 00_scope.md R8, R10, R12 (model's choice of where it is checked: log 5): a configuration with
IF at an address the block reads, with two equal ports, two equal IF bits, or a RESOLVE other than OR is refused. -/
def Obligations.InadmissibleConfigurationIsRefused : Prop :=
  ∀ (s : State) (i : Instr), isInvalid i = false →
    (∃ k < 1024, s.cfg.ifAddr = s.cfg.mapBase + BitVec.ofNat 16 k) ∨
    (∃ k < 4096, s.cfg.ifAddr = s.cfg.tileBase + BitVec.ofNat 16 k) ∨
    s.cfg.ifAddr = s.cfg.scrollYAddr ∨ s.cfg.ifAddr = s.cfg.controlAddr ∨
    s.cfg.statusAddr = s.cfg.scanlineAddr ∨ s.cfg.statusAddr = s.cfg.compareAddr ∨
    s.cfg.scanlineAddr = s.cfg.compareAddr ∨ s.cfg.ifVblankBit = s.cfg.ifStatBit ∨
    (∃ a b, resolvePixel s.cfg.resolve a b ≠ shade (a || b)) →
    exec i s = .refused .configurationNotAdmitted

/-- 41_register_port.md R148: a READ or WRITE of any other address raises UnmappedRegister with the address; nothing is
stored or returned, and every later operation has no step. The addresses of SCROLL-Y, SCROLL-X, CONTROL, PALETTE and IF
are such addresses at the default parameters, which are presumed (log 6). -/
def Obligations.UnmappedAccessFaultsForGood : Prop :=
  (∀ (s : State) (a : Address) (v : Byte), Ready s → onPort s.cfg a = false →
    exec (decodeRead s.cfg a) s = .next { s with run := .faulted (.unmappedRegister a) } ∧
    exec (decodeWrite s.cfg a v) s = .next { s with run := .faulted (.unmappedRegister a) } ∧
    exec (.readUnmapped a) s = .next { s with run := .faulted (.unmappedRegister a) } ∧
    exec (.writeUnmapped a v) s = .next { s with run := .faulted (.unmappedRegister a) } ∧
    ∀ j, isInvalid j = false →
      exec j { s with run := .faulted (.unmappedRegister a) } = .fault (.stuck (.unmappedRegister a))) ∧
  (∀ a ∈ [(0xFF42 : Address), 0xFF43, 0xFF40, 0xFF47, 0xFF0F], onPort Config.defaults a = false)

/-- 60_exceptions.md R202 (an integer count is the model's choice, log 8): a STEP of a negative count raises
OutOfRangeCycleCount with the count, never clamped, and nothing is added to acc. The codes are R201's and R202's. -/
def Obligations.NegativeCountIsRejected : Prop :=
  (∀ (s : State) (n : Int), Ready s → n < 0 →
    exec (.step n) s = .next { s with run := .faulted (.outOfRangeCycleCount n) }) ∧
  (∀ a, (Error.unmappedRegister a).code = 1) ∧ (∀ n, (Error.outOfRangeCycleCount n).code = 2)

/-- 60_exceptions.md R201, R202, R204: errors are precise, and only READ_UNMAPPED, WRITE_UNMAPPED and a STEP of a
negative count raise one. A faulted next state is the state before with `run` changed, and nothing else. -/
def Obligations.ErrorsArePreciseAndOnlyTheseOperationsRaise : Prop :=
  ∀ (s t : State) (i : Instr) (e : Error), exec i s = .next t → t.run = .faulted e →
    t = { s with run := .faulted e } ∧
      ((∃ a, i = .readUnmapped a ∧ e = .unmappedRegister a) ∨
       (∃ a v, i = .writeUnmapped a v ∧ e = .unmappedRegister a) ∨
       (∃ n, n < 0 ∧ i = .step n ∧ e = .outOfRangeCycleCount n))

/-! ### Register port -/

/-- 41_register_port.md R141: READ_SCANLINE returns the current scanline and changes nothing else; under INV1 the byte
is the scanline itself. -/
def Obligations.ReadScanlineReturnsTheLine : Prop :=
  ∀ s : State, Ready s →
    exec .readScanline s = .next { s with returned := s.returned ++ [BitVec.ofNat 8 s.ly] } ∧
      (s.ly ≤ 153 → (BitVec.ofNat 8 s.ly).toNat = s.ly)

/-- 10_state.md R27, R21, R24, R25; 41_register_port.md R142: READ_STATUS returns the combined byte, bit by bit, and
changes nothing else. -/
def Obligations.ReadStatusReturnsEveryField : Prop :=
  ∀ s : State, Ready s → ∃ v : Byte, exec .readStatus s = .next { s with returned := s.returned ++ [v] } ∧
    v.getLsbD 0 = decide (s.mode = .vblank ∨ s.mode = .xfer) ∧
    v.getLsbD 1 = decide (s.mode = .oam ∨ s.mode = .xfer) ∧
    v.getLsbD 2 = s.coinc ∧ v.getLsbD 3 = s.enHblank ∧ v.getLsbD 4 = s.enVblank ∧ v.getLsbD 5 = s.enOam ∧
    v.getLsbD 6 = s.enLyc ∧
    (s.cfg.statBit7 = .stored → v.getLsbD 7 = s.stat7) ∧
    (s.cfg.statBit7 = .readsZero → v.getLsbD 7 = false) ∧
    (s.cfg.statBit7 = .readsOne → v.getLsbD 7 = true)

/-- 41_register_port.md R143: READ_COMPARE returns the compare target and changes nothing else, and every value a
WRITE_COMPARE wrote reads back as written; the write itself changes `lyc` alone (R147). -/
def Obligations.CompareReadsBackAsWritten : Prop :=
  ∀ (s : State) (v : Byte), Ready s →
    exec .readCompare s = .next { s with returned := s.returned ++ [s.lyc] } ∧
    exec (.writeCompare v) s = .next { s with lyc := v } ∧
    exec .readCompare { s with lyc := v } = .next { s with lyc := v, returned := s.returned ++ [v] }

/-- 41_register_port.md R144, R145; 10_state.md R25: WRITE_STATUS stores bits 3 to 6, and bit 7 under Stored only; mode,
coinc and everything else keep their values whatever bits 2..0 are. -/
def Obligations.WriteStatusStoresTheEnables : Prop :=
  ∀ (s : State) (v : Byte), Ready s → ∃ t, exec (.writeStatus v) s = .next t ∧
    t = { s with enHblank := v.getLsbD 3, enVblank := v.getLsbD 4, enOam := v.getLsbD 5, enLyc := v.getLsbD 6,
                 stat7 := t.stat7 } ∧
    (s.cfg.statBit7 = .stored → t.stat7 = v.getLsbD 7) ∧ (s.cfg.statBit7 ≠ .stored → t.stat7 = s.stat7)

/-- 41_register_port.md R146: WRITE_SCANLINE sets ly to 0 whatever is written and changes nothing else; the READ after
it returns 0. -/
def Obligations.WriteScanlineResetsTheLine : Prop :=
  ∀ (s : State) (v : Byte), Ready s →
    exec (.writeScanline v) s = .next { s with ly := 0 } ∧
    exec .readScanline { s with ly := 0 } = .next { s with ly := 0, returned := s.returned ++ [0] }

/-- 20_memory.md R66: the three register writes are idempotent, and a READ repeated returns the same byte. -/
def Obligations.RegisterAccessesAreIdempotent : Prop :=
  ∀ (s t u : State) (i : Instr), exec i s = .next t → exec i t = .next u →
    ((∃ v, i = .writeStatus v ∨ i = .writeScanline v ∨ i = .writeCompare v) → u = t) ∧
    (i = .readStatus ∨ i = .readScanline ∨ i = .readCompare →
      ∃ v, t = { s with returned := s.returned ++ [v] } ∧ u = { s with returned := s.returned ++ [v, v] })

/-- 40_timing_controller.md R117, 41_register_port.md R149: READ, WRITE and INIT reach no bus byte and trace nothing,
and READ and WRITE run no FSM edge and no coincidence check: mode, acc, coinc and the buffer keep their values. -/
def Obligations.RegisterPortRunsNoTiming : Prop :=
  ∀ (s t : State) (i : Instr), isInternal i = false → (∀ n, i ≠ .step n) → exec i s = .next t →
    t.bus = s.bus ∧ t.trace = s.trace ∧
      (i ≠ .init → t.mode = s.mode ∧ t.acc = s.acc ∧ t.coinc = s.coinc ∧ t.buf = s.buf)

/-! ### The edges of the mode FSM -/

/-- 40_timing_controller.md R103, 10_state.md R28: OAM-Scan to Pixel-Transfer. No request, no other field. -/
def Obligations.OamEdgeEntersPixelTransfer : Prop :=
  ∀ s : State, Ready s → s.mode = .oam → 80 ≤ s.acc →
    exec .tOamXfer s = .next { s with mode := .xfer, acc := s.acc - 80 }

/-- 40_timing_controller.md R104: Pixel-Transfer to H-Blank is the entry of H-Blank with its STAT request (R111), then
the decode of the line just transferred. -/
def Obligations.XferEdgeEntersHblankThenDecodes : Prop :=
  ∀ s : State, Ready s → s.mode = .xfer → 172 ≤ s.acc → ∃ u t,
    exec (.statModeEntry .hblank) { s with mode := .hblank, acc := s.acc - 172 } = .next u ∧
    exec (.decodeScanline s.ly) u = .next t ∧ exec .tXferHblank s = .next t ∧
    t.mode = .hblank ∧ t.ly = s.ly ∧ t.acc = s.acc - 172

/-- 40_timing_controller.md R105: H-Blank to OAM-Scan on the next line, when that is not 144. -/
def Obligations.HblankEdgeStartsTheNextLine : Prop :=
  ∀ s : State, Ready s → s.mode = .hblank → 204 ≤ s.acc → s.ly ≠ 143 → ∃ t,
    exec (.statModeEntry .oam) { s with mode := .oam, ly := s.ly + 1, acc := s.acc - 204 } = .next t ∧
    exec .tHblankOam s = .next t ∧ t.mode = .oam ∧ t.ly = s.ly + 1 ∧ t.acc = s.acc - 204

/-- 40_timing_controller.md R105; 20_memory.md R55; 60_exceptions.md R211: H-Blank to V-Blank at line 144: the VBlank
request, whatever the enables, then the STAT request of V-Blank entry, then complete_frame. -/
def Obligations.HblankEdgeEntersVblank : Prop :=
  ∀ s : State, Ready s → s.mode = .hblank → 204 ≤ s.acc → s.ly = 143 → ∃ u t,
    exec (.statModeEntry .vblank)
      { s with
        mode := .vblank, ly := 144, acc := s.acc - 204,
        bus := s.bus.write s.cfg.ifAddr (s.bus.read s.cfg.ifAddr ||| (1#8 <<< s.cfg.ifVblankBit.val)),
        trace := s.trace ++ [.irqReq .vblank .vblankEntry] } = .next u ∧
    exec .completeFrame u = .next t ∧ exec .tHblankVblank s = .next t ∧
    t.mode = .vblank ∧ t.ly = 144 ∧ t.acc = s.acc - 204

/-- 40_timing_controller.md R106: a V-Blank line ends with no mode change and no request while the next line is at most
153; after line 153 the block enters OAM-Scan at line 0 with that entry's STAT request. -/
def Obligations.VblankEdgeCountsThenWraps : Prop :=
  (∀ s : State, Ready s → s.mode = .vblank → 456 ≤ s.acc → s.ly < 153 →
    exec .tVblankLine s = .next { s with ly := s.ly + 1, acc := s.acc - 456 }) ∧
  (∀ s : State, Ready s → s.mode = .vblank → 456 ≤ s.acc → 153 ≤ s.ly → ∃ t,
    exec (.statModeEntry .oam) { s with mode := .oam, ly := 0, acc := s.acc - 456 } = .next t ∧
    exec .tVblankOam s = .next t ∧ t.mode = .oam ∧ t.ly = 0 ∧ t.acc = s.acc - 456)

/-- 40_timing_controller.md R102 (the refusal off the edge: model's choice, log 9): exactly one edge has a step when the
accumulator has reached the mode's threshold, and none otherwise. -/
def Obligations.ExactlyOneEdgeIsDue : Prop :=
  ∀ s : State, Ready s →
    (threshold s.mode ≤ s.acc → ∃ i t, isEdge i = true ∧ exec i s = .next t ∧
      ∀ j, isEdge j = true → j ≠ i → exec j s = .refused .transitionNotReached) ∧
    (s.acc < threshold s.mode → ∀ j, isEdge j = true → exec j s = .refused .transitionNotReached)

/-! ### Interrupt requests -/

/-- 20_memory.md R55: IfSet sets one bit of IF, never clears any bit, keeps the others and every other byte; setting an
already set bit changes nothing in IF, but the request is still traced. -/
def Obligations.RequestSetsOneIfBitAndIsTraced : Prop :=
  ∀ (s : State) (line : IrqLine) (cause : Cause),
    (∀ j < 8, ((request line cause s).bus.read s.cfg.ifAddr).getLsbD j =
      ((s.bus.read s.cfg.ifAddr).getLsbD j ||
        decide (j = (if line = .vblank then s.cfg.ifVblankBit else s.cfg.ifStatBit).val))) ∧
    (∀ a, a ≠ s.cfg.ifAddr → (request line cause s).bus.read a = s.bus.read a) ∧
    (request line cause s).trace = s.trace ++ [.irqReq line cause] ∧
    request line cause s = { s with bus := (request line cause s).bus, trace := (request line cause s).trace }

/-- 40_timing_controller.md R111, R112: STAT_MODE_ENTRY requests STAT exactly when the entered mode's enable is set
(for OAM-Scan also en_vblank under the quirk; never for Pixel-Transfer), and changes nothing but IF and the trace. -/
def Obligations.ModeEntryRequestsByItsEnable : Prop :=
  ∀ (s : State) (m : Mode), Ready s →
    let enabled := (m = .hblank ∧ s.enHblank = true) ∨ (m = .vblank ∧ s.enVblank = true) ∨
      (m = .oam ∧ (s.enOam = true ∨ (s.cfg.oamEntryQuirk = true ∧ s.enVblank = true)))
    (enabled → exec (.statModeEntry m) s = .next { s with
      bus := s.bus.write s.cfg.ifAddr (s.bus.read s.cfg.ifAddr ||| (1#8 <<< s.cfg.ifStatBit.val)),
      trace := s.trace ++ [.irqReq .stat (.modeEntry m)] }) ∧
    (¬ enabled → exec (.statModeEntry m) s = .next s)

/-- 40_timing_controller.md R113: the coincidence check sets or clears coinc by ly = lyc and requests STAT on a match
with en_lyc, every time it runs. -/
def Obligations.CoincidenceCheckComparesAndRequests : Prop :=
  ∀ s : State, Ready s →
    (s.ly % 256 = s.lyc.toNat → s.enLyc = true → exec .coincidenceCheck s = .next { s with
      coinc := true
      bus := s.bus.write s.cfg.ifAddr (s.bus.read s.cfg.ifAddr ||| (1#8 <<< s.cfg.ifStatBit.val))
      trace := s.trace ++ [.irqReq .stat .coincidence] }) ∧
    (s.ly % 256 = s.lyc.toNat → s.enLyc = false → exec .coincidenceCheck s = .next { s with coinc := true }) ∧
    (s.ly % 256 ≠ s.lyc.toNat → exec .coincidenceCheck s = .next { s with coinc := false })

/-- 40_timing_controller.md R114: a compare value of 154 to 255 never coincides: STEP clears coinc and makes no
coincidence request, from every state that meets INV1 and INV3. -/
def Obligations.CompareAboveLastLineNeverCoincides : Prop :=
  ∀ (s : State) (n : Nat), Ready s → s.ly ≤ 153 → (s.mode ≠ .vblank → s.ly ≤ 143) → 154 ≤ s.lyc.toNat →
    ∃ t, exec (.step n) s = .next t ∧ t.coinc = false ∧
      t.trace.filter isCoincidence = s.trace.filter isCoincidence

/-! ### STEP -/

/-- 40_timing_controller.md R118: with the accumulator below the threshold (INV2), STEP 0 is the coincidence check and
nothing else. -/
def Obligations.StepZeroIsTheCoincidenceCheck : Prop :=
  ∀ s : State, Ready s → s.acc < threshold s.mode →
    ∃ t, exec (.step 0) s = .next t ∧ exec .coincidenceCheck s = .next t

/-- 40_timing_controller.md R100, R101, R102, R108: STEP of any count is its count added to acc, then a finite run of the
FSM's edges, each executed at its edge, to an accumulator below the threshold, then one coincidence check. -/
def Obligations.StepIsEdgesThenOneCheck : Prop :=
  ∀ (s : State) (n : Nat), Ready s → ∃ (es : List Instr) (u t : State),
    (∀ i ∈ es, isEdge i = true) ∧ execAll es { s with acc := s.acc + n } = .next u ∧
    u.acc < threshold u.mode ∧ exec .coincidenceCheck u = .next t ∧ exec (.step n) s = .next t

/-- 40_timing_controller.md R107: STEP a+b and STEP a then STEP b end in the same mode, line, accumulator, buffer,
registers and coincidence flag, with the same events but for coincidence requests; outside IF's STAT bit the bus is the
same, and a STAT bit the one STEP sets the two set too. -/
def Obligations.AnyGroupingOfCyclesAgrees : Prop :=
  ∀ (s : State) (a b : Nat), Ready s → ∃ t u v,
    exec (.step (a + b : Nat)) s = .next t ∧ exec (.step a) s = .next u ∧ exec (.step b) u = .next v ∧
    v = { t with bus := v.bus, trace := v.trace } ∧
    v.trace.filter (fun e => !isCoincidence e) = t.trace.filter (fun e => !isCoincidence e) ∧
    (∀ x, x ≠ s.cfg.ifAddr → v.bus.read x = t.bus.read x) ∧
    (∀ j, j ≠ s.cfg.ifStatBit.val →
      (v.bus.read s.cfg.ifAddr).getLsbD j = (t.bus.read s.cfg.ifAddr).getLsbD j) ∧
    ((t.bus.read s.cfg.ifAddr).getLsbD s.cfg.ifStatBit.val = true →
      (v.bus.read s.cfg.ifAddr).getLsbD s.cfg.ifStatBit.val = true)

/-- 40_timing_controller.md R116, 70_reset_and_hazards.md R250: within a visible line the mode is OAM-Scan for 80
cycles, Pixel-Transfer for 172 and H-Blank for 204, and 456 cycles end at the start of the next line (line 143 ends at
V-Blank's line 144). -/
def Obligations.VisibleLineTakes456Cycles : Prop :=
  ∀ (s : State) (c : Nat), Ready s → LineStart s → s.ly ≤ 143 → c ≤ 456 → ∃ t, exec (.step c) s = .next t ∧
    (c < 80 → t.mode = .oam ∧ t.ly = s.ly ∧ t.acc = c) ∧
    (80 ≤ c ∧ c < 252 → t.mode = .xfer ∧ t.ly = s.ly ∧ t.acc = c - 80) ∧
    (252 ≤ c ∧ c < 456 → t.mode = .hblank ∧ t.ly = s.ly ∧ t.acc = c - 252) ∧
    (c = 456 → t.mode = (if s.ly = 143 then .vblank else .oam) ∧ t.ly = s.ly + 1 ∧ t.acc = 0)

/-- 40_timing_controller.md R116; 43_frame_emission.md R184; 42_renderer.md R167: from the start of line 0, 70224 cycles
return there with exactly one VBlank request, one frame if CONTROL bit 7 is set and none otherwise, and 8785 bus
reads (the read inside IfSet is not traced: model's choice, log 14). -/
def Obligations.FrameTakes70224Cycles : Prop :=
  ∀ s : State, Ready s → LineStart s → s.ly = 0 → ∃ t, exec (.step 70224) s = .next t ∧ LineStart t ∧ t.ly = 0 ∧
    (t.trace.filter isVblankRequest).length = (s.trace.filter isVblankRequest).length + 1 ∧
    (t.trace.filter isFrame).length =
      (s.trace.filter isFrame).length + (if (s.bus.read s.cfg.controlAddr).getLsbD 7 then 1 else 0) ∧
    (t.trace.filter isBusRead).length = (s.trace.filter isBusRead).length + 8785

/-- 43_frame_emission.md R185, R181; 42_renderer.md R171: from the start of line 0 with the display enabled, 65664
cycles reach V-Blank and emit exactly one frame, which holds the background pixel of every line and column, given by
the bus of that STEP. -/
def Obligations.EmittedFrameShowsEveryLine : Prop :=
  ∀ s : State, Ready s → LineStart s → s.ly = 0 → (s.bus.read s.cfg.controlAddr).getLsbD 7 = true → ∃ t f,
    exec (.step 65664) s = .next t ∧ t.mode = .vblank ∧ t.ly = 144 ∧ t.acc = 0 ∧ t.buf = f ∧
    t.trace.filter isFrame = s.trace.filter isFrame ++ [.frameReady f] ∧
    ∀ y x (hy : y < 144) (hx : x < 160), f[y][x] = shade (backgroundDark s.cfg s.bus y x)

/-- 40_timing_controller.md R119, 42_renderer.md R170, 43_frame_emission.md R180: the timing controller and the
renderer run identically whether the display is enabled or not. Two buses that differ at CONTROL alone, where CONTROL
is no byte the renderer reads (this premise is the statement's own), give the same mode, line, accumulator,
registers, flag, buffer, other bus bytes and events, but for frames and the CONTROL byte read; with bit 7 clear no
frame is emitted. -/
def Obligations.DisplayEnableGatesOnlyTheFrame : Prop :=
  ∀ (s : State) (bus' : Memory) (n : Nat), Ready s →
    (∀ a, a ≠ s.cfg.controlAddr → bus'.read a = s.bus.read a) →
    s.cfg.controlAddr ≠ s.cfg.scrollYAddr → 1024 ≤ (s.cfg.controlAddr - s.cfg.mapBase).toNat →
    4096 ≤ (s.cfg.controlAddr - s.cfg.tileBase).toNat →
    ∃ t t', exec (.step n) s = .next t ∧ exec (.step n) { s with bus := bus' } = .next t' ∧
      t' = { t with bus := t'.bus, trace := t'.trace } ∧
      (∀ a, a ≠ s.cfg.controlAddr → t'.bus.read a = t.bus.read a) ∧
      t'.trace.filter (fun e => !isFrame e && !isReadOf s.cfg.controlAddr e) =
        t.trace.filter (fun e => !isFrame e && !isReadOf s.cfg.controlAddr e) ∧
      ((s.bus.read s.cfg.controlAddr).getLsbD 7 = false → t.trace.filter isFrame = s.trace.filter isFrame)

/-- 40_timing_controller.md R100 to R106, R113: two ready states that agree on mode, line and accumulator agree on them
after STEP, and on the coincidence flag if they agree on the compare target, whatever their enables, buses, buffers and
parameters: no pixel, register or bus byte reaches the timing. -/
def Obligations.TimingDependsOnNothingElse : Prop :=
  ∀ (s s' : State) (n : Nat), Ready s → Ready s' → s'.mode = s.mode → s'.ly = s.ly → s'.acc = s.acc → ∃ t t',
    exec (.step n) s = .next t ∧ exec (.step n) s' = .next t' ∧
      t'.mode = t.mode ∧ t'.ly = t.ly ∧ t'.acc = t.acc ∧ (s'.lyc = s.lyc → t'.coinc = t.coinc)

/-- 40_timing_controller.md R115, 70_reset_and_hazards.md R245: a STEP of at most 456 cycles skips no line: it ends on
the line it began on or on the next one. -/
def Obligations.ShortStepSkipsNoLine : Prop :=
  ∀ (s : State) (n : Nat), Ready s → TimingInv s → n ≤ 456 → ∃ t, exec (.step n) s = .next t ∧
    (t.ly = s.ly ∨ t.ly = if s.ly = 153 then 0 else s.ly + 1)

/-- 70_reset_and_hazards.md R242: after a SCANLINE write at the start of a V-Blank line, V-Blank goes on for 154 more
lines: 153 lines later the mode is still V-Blank at line 153 with no further VBlank request, and one line after that
OAM-Scan begins at line 0. -/
def Obligations.ScanlineWriteLengthensVblank : Prop :=
  ∀ (s : State) (v : Byte), Ready s → s.mode = .vblank → s.acc = 0 → ∃ u t w,
    exec (.writeScanline v) s = .next u ∧ exec (.step 69768) u = .next t ∧ exec (.step 456) t = .next w ∧
    t.mode = .vblank ∧ t.ly = 153 ∧ t.acc = 0 ∧
    t.trace.filter isVblankRequest = s.trace.filter isVblankRequest ∧
    w.mode = .oam ∧ w.ly = 0 ∧ w.acc = 0 ∧
    w.trace.filter isVblankRequest = s.trace.filter isVblankRequest

/-! ### Renderer and frame -/

/-- 42_renderer.md R160, R163, R164, R166, R168: DECODE_SCANLINE of a visible line gives each of its 160 pixels the
background pixel of the bus, and changes nothing but the buffer and the trace. -/
def Obligations.DecodeRendersTheBackground : Prop :=
  ∀ (s : State) (line : Nat) (h : line < 144), Ready s → ∃ t, exec (.decodeScanline line) s = .next t ∧
    t = { s with buf := t.buf, trace := t.trace } ∧
    ∀ x (hx : x < 160), t.buf[line][x] = shade (backgroundDark s.cfg s.bus line x)

/-- 42_renderer.md R162, R165: the 160 columns are 20 slots of 8, slot k at columns 8k to 8k+7, each pixel an overwrite
with the unpacked bit of its slot's two plane bytes; no pixel of any other row changes, apart from line 0's clear. -/
def Obligations.DecodeOverwritesExactlyOneRow : Prop :=
  ∀ (s : State) (line : Nat) (h : line < 144), Ready s → ∃ t, exec (.decodeScanline line) s = .next t ∧
    (∀ slot col (hs : slot < 20) (hc : col < 8), ∃ p0 p1 : Byte,
      (let row := (line + (s.bus.read s.cfg.scrollYAddr).toNat) % 256
       let idx := s.bus.read (s.cfg.mapBase + BitVec.ofNat 16 (32 * (row / 8) + slot))
       let at0 := s.cfg.tileBase + BitVec.ofNat 16 (16 * idx.toNat + 2 * (row % 8))
       p0 = s.bus.read at0 ∧ p1 = s.bus.read (at0 + 1)) ∧
      t.buf[line][slot * 8 + col] = unpack s.cfg p0 p1 col) ∧
    (line ≠ 0 → ∀ y (hy : y < 144), y ≠ line → t.buf[y] = s.buf[y])

/-- 42_renderer.md R161: decoding line 0 clears the whole buffer first: rows 1 to 143 are Light whatever they held, and
row 0 does not depend on what the buffer held. No other operation that can follow INIT clears: decoding another line
keeps every other row. -/
def Obligations.LineZeroClearsTheBuffer : Prop :=
  (∀ (s : State) (buf' : Buffer), Ready s → ∃ t t', exec (.decodeScanline 0) s = .next t ∧
    exec (.decodeScanline 0) { s with buf := buf' } = .next t' ∧ t'.buf = t.buf ∧
    ∀ y x (hy : y < 144) (hx : x < 160), 1 ≤ y → t.buf[y][x] = .light) ∧
  (∀ (s : State) (line : Nat), Ready s → line ≠ 0 → ∃ t, exec (.decodeScanline line) s = .next t ∧
    ∀ y (hy : y < 144), y ≠ line → t.buf[y] = s.buf[y])

/-- 42_renderer.md R160: a line of 144 or more is a no-op, with no bus read. -/
def Obligations.DecodeOfABlankingLineDoesNothing : Prop :=
  ∀ (s : State) (line : Nat), Ready s → 144 ≤ line → exec (.decodeScanline line) s = .next s

/-- 42_renderer.md R167: the reads of a decode, in order: SCY, then for slots 0 to 19 the map byte, p0 and p1; 61 in
all, each traced with the byte the bus holds. -/
def Obligations.DecodeReadsInOrder : Prop :=
  ∀ (s : State) (line : Nat), Ready s → line < 144 → ∃ (t : State) (addrs : List Address),
    exec (.decodeScanline line) s = .next t ∧
    t.trace = s.trace ++ addrs.map (fun a => Event.busRd a (s.bus.read a)) ∧ addrs.length = 61 ∧
    addrs[0]? = some s.cfg.scrollYAddr ∧
    ∀ slot < 20, (
      let row := (line + (s.bus.read s.cfg.scrollYAddr).toNat) % 256
      let mapAt := s.cfg.mapBase + BitVec.ofNat 16 (32 * (row / 8) + slot)
      let tileAt := s.cfg.tileBase + BitVec.ofNat 16 (16 * (s.bus.read mapAt).toNat + 2 * (row % 8))
      addrs[3 * slot + 1]? = some mapAt ∧ addrs[3 * slot + 2]? = some tileAt ∧
        addrs[3 * slot + 3]? = some (tileAt + 1))

/-- 43_frame_emission.md R180: COMPLETE_FRAME reads CONTROL once and appends a frame-ready event with the buffer if
bit 7 is set; it writes no state but the trace. -/
def Obligations.CompleteFrameEmitsWhenEnabled : Prop :=
  ∀ (s : State) (ctl : Byte), Ready s → s.bus.read s.cfg.controlAddr = ctl →
    (ctl.getLsbD 7 = true → exec .completeFrame s =
      .next { s with trace := s.trace ++ [.busRd s.cfg.controlAddr ctl, .frameReady s.buf] }) ∧
    (ctl.getLsbD 7 = false → exec .completeFrame s =
      .next { s with trace := s.trace ++ [.busRd s.cfg.controlAddr ctl] })

/-- 43_frame_emission.md R181, 10_state.md R39: a frame-ready event carries the buffer at the moment of emission, and no
later operation changes an emitted frame or any other event: the trace and the returned bytes only grow. -/
def Obligations.EmittedFramesAreImmutable : Prop :=
  (∀ s : State, Ready s → (s.bus.read s.cfg.controlAddr).getLsbD 7 = true →
    ∃ t, exec .completeFrame s = .next t ∧ t.trace.getLast? = some (.frameReady s.buf)) ∧
  (∀ (s t : State) (i : Instr), exec i s = .next t → s.trace <+: t.trace ∧ s.returned <+: t.returned)

/-- 43_frame_emission.md R182: a frame as flat data is 23040 pixel codes, row-major, Light 0 and Dark 1. -/
def Obligations.FramePayloadIsRowMajor : Prop :=
  ∀ f : Buffer, (framePayload f).length = 23040 ∧
    ∀ y x (hy : y < 144) (hx : x < 160),
      (framePayload f)[160 * y + x]? = some (if f[y][x] = .dark then 1 else 0)

/-! ### Invariants and whole-machine rules -/

/-- 10_state.md R36: every step keeps INV1, INV2 and INV3, from every state that meets them. -/
def Obligations.StepKeepsTheTimingInvariants : Prop :=
  ∀ s t : State, TimingInv s → step s = .next t → TimingInv t

/-- Every step keeps the bus in canonical form (model's representation of the bus, log 11). -/
def Obligations.StepKeepsTheBusCanonical : Prop :=
  ∀ s t : State, s.bus.wf → step s = .next t → t.bus.wf

/-- 10_state.md R38: the reset state has the values INIT leaves, meets the invariants and executes; INIT from power-on
gives exactly it (bus, trace and the model's own fields: log 3, log 11, log 14). -/
def Obligations.ResetIsWhatInitLeaves : Prop :=
  exec .init State.powerOn = .next State.reset ∧ TimingInv State.reset ∧ State.reset.bus.wf ∧ Ready State.reset ∧
    State.powerOn.run = .uninit ∧ State.reset.mode = .oam ∧ State.reset.ly = 0 ∧ State.reset.lyc = 0 ∧
    State.reset.acc = 0 ∧ State.reset.coinc = false

/-- 20_memory.md R53, R55; 60_exceptions.md R207, R209: whatever the operation, the only bus byte it changes is IF; no
bit of IF is ever cleared, and only the two request bits are ever set. -/
def Obligations.OnlyRequestBitsOfIfChange : Prop :=
  ∀ (s t : State) (i : Instr), exec i s = .next t →
    (∀ a, a ≠ s.cfg.ifAddr → t.bus.read a = s.bus.read a) ∧
    (∀ j, (s.bus.read s.cfg.ifAddr).getLsbD j = true → (t.bus.read s.cfg.ifAddr).getLsbD j = true) ∧
    (∀ j, j ≠ s.cfg.ifVblankBit.val → j ≠ s.cfg.ifStatBit.val →
      (t.bus.read s.cfg.ifAddr).getLsbD j = (s.bus.read s.cfg.ifAddr).getLsbD j)

/-- 10_state.md R21 to R29 and R32, 41_register_port.md R145: who writes what. mode: INIT, STEP and the edges. ly:
these and WRITE_SCANLINE. lyc: INIT and WRITE_COMPARE. coinc: INIT, STEP and the check. Enables and stat7: INIT and
WRITE_STATUS. acc: INIT, STEP and the edges. buf: INIT, STEP, the decode and the edge that calls it. The parameters and
the host's moves: nothing. The returned bytes: READ. No operation leads back to Uninit. -/
def Obligations.EachFieldHasOnlyItsWriters : Prop :=
  ∀ (s t : State) (i : Instr), exec i s = .next t →
    let timing := i = .init ∨ (∃ n, i = .step n) ∨ isEdge i = true
    (t.mode ≠ s.mode → timing) ∧ (t.acc ≠ s.acc → timing) ∧
    (t.ly ≠ s.ly → timing ∨ ∃ v, i = .writeScanline v) ∧
    (t.lyc ≠ s.lyc → i = .init ∨ ∃ v, i = .writeCompare v) ∧
    (t.coinc ≠ s.coinc → i = .init ∨ (∃ n, i = .step n) ∨ i = .coincidenceCheck) ∧
    (t.enHblank ≠ s.enHblank ∨ t.enVblank ≠ s.enVblank ∨ t.enOam ≠ s.enOam ∨ t.enLyc ≠ s.enLyc ∨ t.stat7 ≠ s.stat7 →
      i = .init ∨ ∃ v, i = .writeStatus v) ∧
    (t.buf ≠ s.buf → i = .init ∨ (∃ n, i = .step n) ∨ i = .tXferHblank ∨ ∃ line, i = .decodeScanline line) ∧
    (t.returned ≠ s.returned → i = .readStatus ∨ i = .readScanline ∨ i = .readCompare) ∧
    t.cfg = s.cfg ∧ t.hostQueue = s.hostQueue ∧ t.run ≠ .uninit
end

