-- ==== Sys2Proof/Laws/Encoding.lean ====
section
/-! SUPPORT. The fields of a transaction word and the word made from fields (30_encoding.md R85). -/

namespace Sys2Proof

/-- Bit by bit, a made word is its three fields. -/
theorem TxWord.getLsbD_make (kind : BitVec 2) (addr : Address) (data : Byte) (i : Nat) :
    (TxWord.make kind addr data).getLsbD i =
      if i < 8 then data.getLsbD i else if i < 24 then addr.getLsbD (i - 8) else kind.getLsbD (i - 24) := by
  show BitVec.getLsbD (w := 2 + 16 + 8) (kind ++ addr ++ data) i = _
  rw [BitVec.getLsbD_append, BitVec.getLsbD_append]
  by_cases h : i < 8
  · simp [h]
  · by_cases h' : i < 24
    · simp [h, h', show i - 8 < 16 by omega]
    · simp [h, h', show ¬ i - 8 < 16 by omega, show i - 8 - 16 = i - 24 by omega]

@[simp] theorem TxWord.kind_make (kind : BitVec 2) (addr : Address) (data : Byte) :
    (TxWord.make kind addr data).kind = kind := by
  refine BitVec.eq_of_getLsbD_eq fun i hi => ?_
  simp [TxWord.kind, TxWord.getLsbD_make, hi, show ¬ 24 + i < 8 by omega]

@[simp] theorem TxWord.addr_make (kind : BitVec 2) (addr : Address) (data : Byte) :
    (TxWord.make kind addr data).addr = addr := by
  refine BitVec.eq_of_getLsbD_eq fun i hi => ?_
  simp [TxWord.addr, TxWord.getLsbD_make, hi, show 8 + i < 24 by omega]

@[simp] theorem TxWord.data_make (kind : BitVec 2) (addr : Address) (data : Byte) :
    (TxWord.make kind addr data).data = data := by
  refine BitVec.eq_of_getLsbD_eq fun i hi => ?_
  simp [TxWord.data, TxWord.getLsbD_make, hi]

/-- A word is made of its own fields. -/
theorem TxWord.make_fields (w : TxWord) : TxWord.make w.kind w.addr w.data = w := by
  refine BitVec.eq_of_getLsbD_eq fun i hi => ?_
  rw [TxWord.getLsbD_make]
  split
  · simp [TxWord.data, *]
  · split
    · simp [TxWord.addr, show i - 8 < 16 by omega, show 8 + (i - 8) = i by omega]
    · simp [TxWord.kind, show i - 24 < 2 by omega, show 24 + (i - 24) = i by omega]

end Sys2Proof
end

