-- ==== Sys2Proof/Laws/Memory.lean ====
section
/-! SUPPORT. The laws of the bus: a read after a write, and the canonical form that every memory operation keeps. -/

namespace Sys2Proof.Machine

theorem Memory.get_set_same (m : Memory) (k : Nat) (v : Byte) (h : m.Pairwise (fun c d => c.1 < d.1)) :
    (m.set k v).get k = v := by
  induction m with
  | nil => unfold Memory.set; split <;> simp_all [Memory.get]
  | cons c m ih =>
    obtain ⟨k', v'⟩ := c
    have hget : ∀ m' : Memory, (∀ d ∈ m', k < d.1) → m'.get k = Memory.unlisted := by
      intro m' hm
      induction m' with
      | nil => rfl
      | cons d m' ih' =>
        obtain ⟨kd, vd⟩ := d
        have : k < kd := hm (kd, vd) (by simp)
        simp [Memory.get, show kd ≠ k by omega, ih' fun e he => hm e (by simp [he])]
    have hc := List.pairwise_cons.mp h
    unfold Memory.set
    split
    · split
      · rename_i hk hv
        have : (Memory.get ((k', v') :: m) k) = Memory.unlisted :=
          hget _ fun d hd => by
            rcases List.mem_cons.mp hd with rfl | hd
            · exact hk
            · exact Nat.lt_trans hk (hc.1 d hd)
        rw [this, hv]
      · simp [Memory.get]
    · split
      · split
        · rename_i hk hv
          rw [hget m fun d hd => by have := hc.1 d hd; simp_all, hv]
        · simp [Memory.get]
      · rename_i hk
        simp [Memory.get, show k' ≠ k by omega, ih hc.2]

/-- Setting a byte that is listed needs no canonical form. -/
theorem Memory.get_set_of_ne (m : Memory) (k : Nat) (v : Byte) (hv : v ≠ Memory.unlisted) : (m.set k v).get k = v := by
  induction m with
  | nil => simp [Memory.set, hv, Memory.get]
  | cons c m ih =>
    obtain ⟨k', v'⟩ := c
    unfold Memory.set
    split
    · simp [Memory.get]
    · split
      · simp [Memory.get]
      · rename_i hk
        simp [Memory.get, show k' ≠ k by omega, ih]

theorem Memory.get_set_other (m : Memory) (k k₂ : Nat) (v : Byte) (hne : k₂ ≠ k) :
    (m.set k v).get k₂ = m.get k₂ := by
  induction m with
  | nil => unfold Memory.set; split <;> simp_all [Memory.get, Ne.symm hne]
  | cons c m ih =>
    obtain ⟨k', v'⟩ := c
    unfold Memory.set
    split
    · split <;> simp [Memory.get, Ne.symm hne]
    · split
      · rename_i hk
        subst hk
        split <;> simp [Memory.get, Ne.symm hne]
      · simp [Memory.get, ih]

/-- Setting a key lists that key or nothing new. -/
theorem Memory.mem_set {m : Memory} {k : Nat} {v : Byte} {c : Host.Cell} (h : c ∈ m.set k v) :
    c ∈ m ∨ (c = (k, v) ∧ v ≠ Memory.unlisted) := by
  induction m with
  | nil => unfold Memory.set at h; split at h <;> simp_all
  | cons d m ih =>
    obtain ⟨k', v'⟩ := d
    unfold Memory.set at h
    split at h
    · split at h
      · exact .inl h
      · rcases List.mem_cons.mp h with rfl | h
        · exact .inr ⟨rfl, ‹_›⟩
        · exact .inl h
    · split at h
      · split at h
        · exact .inl (List.mem_cons_of_mem _ h)
        · rcases List.mem_cons.mp h with rfl | h
          · exact .inr ⟨rfl, ‹_›⟩
          · exact .inl (List.mem_cons_of_mem _ h)
      · rcases List.mem_cons.mp h with rfl | h
        · exact .inl (List.mem_cons_self ..)
        · exact (ih h).imp_left (List.mem_cons_of_mem _)

theorem Memory.set_wf {m : Memory} (k : Nat) (v : Byte) (hm : m.wf) (hk : k < 65536) : (m.set k v).wf := by
  refine ⟨?_, fun c hc => ?_⟩
  · obtain ⟨hm, -⟩ := hm
    induction m with
    | nil => unfold Memory.set; split <;> simp
    | cons c m ih =>
      obtain ⟨k', v'⟩ := c
      have hc := List.pairwise_cons.mp hm
      unfold Memory.set
      split
      · split
        · exact hm
        · rename_i hlt _
          exact List.pairwise_cons.mpr ⟨fun d hd => by
            rcases List.mem_cons.mp hd with rfl | hd
            · exact hlt
            · exact Nat.lt_trans hlt (hc.1 d hd), hm⟩
      · split
        · rename_i heq
          subst heq
          split
          · exact hc.2
          · exact List.pairwise_cons.mpr ⟨hc.1, hc.2⟩
        · refine List.pairwise_cons.mpr ⟨fun d hd => ?_, ih hc.2⟩
          rcases Memory.mem_set hd with hd | ⟨rfl, -⟩
          · exact hc.1 d hd
          · show k' < k; omega
  · rcases Memory.mem_set hc with hc | ⟨rfl, hv⟩
    · exact hm.2 c hc
    · exact ⟨hk, hv⟩

/-- A read after a write to the same address gives the value written. -/
theorem Memory.read_write_same {m : Memory} (hm : m.wf) (a : Address) (v : Byte) : (m.write a v).read a = v :=
  Memory.get_set_same m _ v hm.1

/-- A read after a write of a byte that is listed. -/
theorem Memory.read_write_of_ne (m : Memory) (a : Address) {v : Byte} (hv : v ≠ Memory.unlisted) :
    (m.write a v).read a = v :=
  Memory.get_set_of_ne m _ v hv

/-- A write leaves every other address alone. -/
theorem Memory.read_write_other (m : Memory) {a b : Address} (v : Byte) (h : b ≠ a) :
    (m.write a v).read b = m.read b :=
  Memory.get_set_other m _ _ v fun hab => h (BitVec.eq_of_toNat_eq hab)

/-- A write keeps the canonical form. -/
theorem Memory.write_wf {m : Memory} (hm : m.wf) (a : Address) (v : Byte) : (m.write a v).wf :=
  Memory.set_wf _ v hm a.isLt

/-- A fill keeps the canonical form. -/
theorem Memory.fill_wf {m : Memory} (hm : m.wf) (a : Address) (len : Nat) (v : Byte) : (m.fill a len v).wf := by
  induction len generalizing m a with
  | zero => exact hm
  | succ len ih => exact ih (Memory.write_wf hm a v) (a + 1)

/-- IfSet keeps the canonical form. -/
theorem ifSet_bus_wf {s : State} (bit : Fin 8) (h : s.bus.wf) : (ifSet bit s).bus.wf := Memory.write_wf h _ _

theorem reset_bus_wf : State.reset.bus.wf := by decide

end Sys2Proof.Machine
end

