-- ==== Sys2Proof/Laws/State.lean ====
section
/-! SUPPORT. One lemma per field per update of the state: what each shared operation leaves in each field. -/

namespace Sys2Proof.Machine

@[simp] theorem emit_mode (es : List Event) (s : State) : (emit es s).mode = s.mode := rfl
@[simp] theorem emit_enHblank (es : List Event) (s : State) : (emit es s).enHblank = s.enHblank := rfl
@[simp] theorem emit_enVblank (es : List Event) (s : State) : (emit es s).enVblank = s.enVblank := rfl
@[simp] theorem emit_enOam (es : List Event) (s : State) : (emit es s).enOam = s.enOam := rfl
@[simp] theorem emit_enLyc (es : List Event) (s : State) : (emit es s).enLyc = s.enLyc := rfl
@[simp] theorem emit_stat7 (es : List Event) (s : State) : (emit es s).stat7 = s.stat7 := rfl
@[simp] theorem emit_coinc (es : List Event) (s : State) : (emit es s).coinc = s.coinc := rfl
@[simp] theorem emit_ly (es : List Event) (s : State) : (emit es s).ly = s.ly := rfl
@[simp] theorem emit_lyc (es : List Event) (s : State) : (emit es s).lyc = s.lyc := rfl
@[simp] theorem emit_acc (es : List Event) (s : State) : (emit es s).acc = s.acc := rfl
@[simp] theorem emit_buf (es : List Event) (s : State) : (emit es s).buf = s.buf := rfl
@[simp] theorem emit_run (es : List Event) (s : State) : (emit es s).run = s.run := rfl
@[simp] theorem emit_bus (es : List Event) (s : State) : (emit es s).bus = s.bus := rfl
@[simp] theorem emit_trace (es : List Event) (s : State) :
    (emit es s).trace = s.trace ++ es := rfl
@[simp] theorem emit_returned (es : List Event) (s : State) : (emit es s).returned = s.returned := rfl
@[simp] theorem emit_hostQueue (es : List Event) (s : State) : (emit es s).hostQueue = s.hostQueue := rfl
@[simp] theorem emit_cfg (es : List Event) (s : State) : (emit es s).cfg = s.cfg := rfl

@[simp] theorem ifSet_mode (bit : Fin 8) (s : State) : (ifSet bit s).mode = s.mode := rfl
@[simp] theorem ifSet_enHblank (bit : Fin 8) (s : State) : (ifSet bit s).enHblank = s.enHblank := rfl
@[simp] theorem ifSet_enVblank (bit : Fin 8) (s : State) : (ifSet bit s).enVblank = s.enVblank := rfl
@[simp] theorem ifSet_enOam (bit : Fin 8) (s : State) : (ifSet bit s).enOam = s.enOam := rfl
@[simp] theorem ifSet_enLyc (bit : Fin 8) (s : State) : (ifSet bit s).enLyc = s.enLyc := rfl
@[simp] theorem ifSet_stat7 (bit : Fin 8) (s : State) : (ifSet bit s).stat7 = s.stat7 := rfl
@[simp] theorem ifSet_coinc (bit : Fin 8) (s : State) : (ifSet bit s).coinc = s.coinc := rfl
@[simp] theorem ifSet_ly (bit : Fin 8) (s : State) : (ifSet bit s).ly = s.ly := rfl
@[simp] theorem ifSet_lyc (bit : Fin 8) (s : State) : (ifSet bit s).lyc = s.lyc := rfl
@[simp] theorem ifSet_acc (bit : Fin 8) (s : State) : (ifSet bit s).acc = s.acc := rfl
@[simp] theorem ifSet_buf (bit : Fin 8) (s : State) : (ifSet bit s).buf = s.buf := rfl
@[simp] theorem ifSet_run (bit : Fin 8) (s : State) : (ifSet bit s).run = s.run := rfl
@[simp] theorem ifSet_bus (bit : Fin 8) (s : State) :
    (ifSet bit s).bus = s.bus.write s.cfg.ifAddr (s.bus.read s.cfg.ifAddr ||| (1#8 <<< bit.val)) := rfl
@[simp] theorem ifSet_trace (bit : Fin 8) (s : State) : (ifSet bit s).trace = s.trace := rfl
@[simp] theorem ifSet_returned (bit : Fin 8) (s : State) : (ifSet bit s).returned = s.returned := rfl
@[simp] theorem ifSet_hostQueue (bit : Fin 8) (s : State) : (ifSet bit s).hostQueue = s.hostQueue := rfl
@[simp] theorem ifSet_cfg (bit : Fin 8) (s : State) : (ifSet bit s).cfg = s.cfg := rfl

@[simp] theorem request_mode (line : IrqLine) (cause : Cause) (s : State) : (request line cause s).mode = s.mode := rfl
@[simp] theorem request_enHblank (line : IrqLine) (cause : Cause) (s : State) : (request line cause s).enHblank = s.enHblank := rfl
@[simp] theorem request_enVblank (line : IrqLine) (cause : Cause) (s : State) : (request line cause s).enVblank = s.enVblank := rfl
@[simp] theorem request_enOam (line : IrqLine) (cause : Cause) (s : State) : (request line cause s).enOam = s.enOam := rfl
@[simp] theorem request_enLyc (line : IrqLine) (cause : Cause) (s : State) : (request line cause s).enLyc = s.enLyc := rfl
@[simp] theorem request_stat7 (line : IrqLine) (cause : Cause) (s : State) : (request line cause s).stat7 = s.stat7 := rfl
@[simp] theorem request_coinc (line : IrqLine) (cause : Cause) (s : State) : (request line cause s).coinc = s.coinc := rfl
@[simp] theorem request_ly (line : IrqLine) (cause : Cause) (s : State) : (request line cause s).ly = s.ly := rfl
@[simp] theorem request_lyc (line : IrqLine) (cause : Cause) (s : State) : (request line cause s).lyc = s.lyc := rfl
@[simp] theorem request_acc (line : IrqLine) (cause : Cause) (s : State) : (request line cause s).acc = s.acc := rfl
@[simp] theorem request_buf (line : IrqLine) (cause : Cause) (s : State) : (request line cause s).buf = s.buf := rfl
@[simp] theorem request_run (line : IrqLine) (cause : Cause) (s : State) : (request line cause s).run = s.run := rfl
@[simp] theorem request_bus (line : IrqLine) (cause : Cause) (s : State) :
    (request line cause s).bus = (ifSet (irqBit s.cfg line) s).bus := rfl
@[simp] theorem request_trace (line : IrqLine) (cause : Cause) (s : State) :
    (request line cause s).trace = s.trace ++ [.irqReq line cause] := rfl
@[simp] theorem request_returned (line : IrqLine) (cause : Cause) (s : State) : (request line cause s).returned = s.returned := rfl
@[simp] theorem request_hostQueue (line : IrqLine) (cause : Cause) (s : State) : (request line cause s).hostQueue = s.hostQueue := rfl
@[simp] theorem request_cfg (line : IrqLine) (cause : Cause) (s : State) : (request line cause s).cfg = s.cfg := rfl

@[simp] theorem returnByte_mode (v : Byte) (s : State) : (returnByte v s).mode = s.mode := rfl
@[simp] theorem returnByte_enHblank (v : Byte) (s : State) : (returnByte v s).enHblank = s.enHblank := rfl
@[simp] theorem returnByte_enVblank (v : Byte) (s : State) : (returnByte v s).enVblank = s.enVblank := rfl
@[simp] theorem returnByte_enOam (v : Byte) (s : State) : (returnByte v s).enOam = s.enOam := rfl
@[simp] theorem returnByte_enLyc (v : Byte) (s : State) : (returnByte v s).enLyc = s.enLyc := rfl
@[simp] theorem returnByte_stat7 (v : Byte) (s : State) : (returnByte v s).stat7 = s.stat7 := rfl
@[simp] theorem returnByte_coinc (v : Byte) (s : State) : (returnByte v s).coinc = s.coinc := rfl
@[simp] theorem returnByte_ly (v : Byte) (s : State) : (returnByte v s).ly = s.ly := rfl
@[simp] theorem returnByte_lyc (v : Byte) (s : State) : (returnByte v s).lyc = s.lyc := rfl
@[simp] theorem returnByte_acc (v : Byte) (s : State) : (returnByte v s).acc = s.acc := rfl
@[simp] theorem returnByte_buf (v : Byte) (s : State) : (returnByte v s).buf = s.buf := rfl
@[simp] theorem returnByte_run (v : Byte) (s : State) : (returnByte v s).run = s.run := rfl
@[simp] theorem returnByte_bus (v : Byte) (s : State) : (returnByte v s).bus = s.bus := rfl
@[simp] theorem returnByte_trace (v : Byte) (s : State) : (returnByte v s).trace = s.trace := rfl
@[simp] theorem returnByte_returned (v : Byte) (s : State) :
    (returnByte v s).returned = s.returned ++ [v] := rfl
@[simp] theorem returnByte_hostQueue (v : Byte) (s : State) : (returnByte v s).hostQueue = s.hostQueue := rfl
@[simp] theorem returnByte_cfg (v : Byte) (s : State) : (returnByte v s).cfg = s.cfg := rfl

@[simp] theorem raise_mode (e : Error) (s : State) : (raise e s).mode = s.mode := rfl
@[simp] theorem raise_enHblank (e : Error) (s : State) : (raise e s).enHblank = s.enHblank := rfl
@[simp] theorem raise_enVblank (e : Error) (s : State) : (raise e s).enVblank = s.enVblank := rfl
@[simp] theorem raise_enOam (e : Error) (s : State) : (raise e s).enOam = s.enOam := rfl
@[simp] theorem raise_enLyc (e : Error) (s : State) : (raise e s).enLyc = s.enLyc := rfl
@[simp] theorem raise_stat7 (e : Error) (s : State) : (raise e s).stat7 = s.stat7 := rfl
@[simp] theorem raise_coinc (e : Error) (s : State) : (raise e s).coinc = s.coinc := rfl
@[simp] theorem raise_ly (e : Error) (s : State) : (raise e s).ly = s.ly := rfl
@[simp] theorem raise_lyc (e : Error) (s : State) : (raise e s).lyc = s.lyc := rfl
@[simp] theorem raise_acc (e : Error) (s : State) : (raise e s).acc = s.acc := rfl
@[simp] theorem raise_buf (e : Error) (s : State) : (raise e s).buf = s.buf := rfl
@[simp] theorem raise_run (e : Error) (s : State) :
    (raise e s).run = .faulted e := rfl
@[simp] theorem raise_bus (e : Error) (s : State) : (raise e s).bus = s.bus := rfl
@[simp] theorem raise_trace (e : Error) (s : State) : (raise e s).trace = s.trace := rfl
@[simp] theorem raise_returned (e : Error) (s : State) : (raise e s).returned = s.returned := rfl
@[simp] theorem raise_hostQueue (e : Error) (s : State) : (raise e s).hostQueue = s.hostQueue := rfl
@[simp] theorem raise_cfg (e : Error) (s : State) : (raise e s).cfg = s.cfg := rfl

@[simp] theorem storeStatus_mode (v : Byte) (s : State) : (storeStatus v s).mode = s.mode := rfl
@[simp] theorem storeStatus_enHblank (v : Byte) (s : State) :
    (storeStatus v s).enHblank = v.getLsbD 3 := rfl
@[simp] theorem storeStatus_enVblank (v : Byte) (s : State) :
    (storeStatus v s).enVblank = v.getLsbD 4 := rfl
@[simp] theorem storeStatus_enOam (v : Byte) (s : State) :
    (storeStatus v s).enOam = v.getLsbD 5 := rfl
@[simp] theorem storeStatus_enLyc (v : Byte) (s : State) :
    (storeStatus v s).enLyc = v.getLsbD 6 := rfl
@[simp] theorem storeStatus_stat7 (v : Byte) (s : State) :
    (storeStatus v s).stat7 = storedBit7 v s := rfl
@[simp] theorem storeStatus_coinc (v : Byte) (s : State) : (storeStatus v s).coinc = s.coinc := rfl
@[simp] theorem storeStatus_ly (v : Byte) (s : State) : (storeStatus v s).ly = s.ly := rfl
@[simp] theorem storeStatus_lyc (v : Byte) (s : State) : (storeStatus v s).lyc = s.lyc := rfl
@[simp] theorem storeStatus_acc (v : Byte) (s : State) : (storeStatus v s).acc = s.acc := rfl
@[simp] theorem storeStatus_buf (v : Byte) (s : State) : (storeStatus v s).buf = s.buf := rfl
@[simp] theorem storeStatus_run (v : Byte) (s : State) : (storeStatus v s).run = s.run := rfl
@[simp] theorem storeStatus_bus (v : Byte) (s : State) : (storeStatus v s).bus = s.bus := rfl
@[simp] theorem storeStatus_trace (v : Byte) (s : State) : (storeStatus v s).trace = s.trace := rfl
@[simp] theorem storeStatus_returned (v : Byte) (s : State) : (storeStatus v s).returned = s.returned := rfl
@[simp] theorem storeStatus_hostQueue (v : Byte) (s : State) : (storeStatus v s).hostQueue = s.hostQueue := rfl
@[simp] theorem storeStatus_cfg (v : Byte) (s : State) : (storeStatus v s).cfg = s.cfg := rfl

@[simp] theorem initialise_mode (s : State) :
    (initialise s).mode = .oam := rfl
@[simp] theorem initialise_enHblank (s : State) :
    (initialise s).enHblank = false := rfl
@[simp] theorem initialise_enVblank (s : State) :
    (initialise s).enVblank = false := rfl
@[simp] theorem initialise_enOam (s : State) :
    (initialise s).enOam = false := rfl
@[simp] theorem initialise_enLyc (s : State) :
    (initialise s).enLyc = false := rfl
@[simp] theorem initialise_stat7 (s : State) :
    (initialise s).stat7 = false := rfl
@[simp] theorem initialise_coinc (s : State) :
    (initialise s).coinc = false := rfl
@[simp] theorem initialise_ly (s : State) :
    (initialise s).ly = 0 := rfl
@[simp] theorem initialise_lyc (s : State) :
    (initialise s).lyc = 0 := rfl
@[simp] theorem initialise_acc (s : State) :
    (initialise s).acc = 0 := rfl
@[simp] theorem initialise_buf (s : State) :
    (initialise s).buf = blankBuffer := rfl
@[simp] theorem initialise_run (s : State) :
    (initialise s).run = .running := rfl
@[simp] theorem initialise_bus (s : State) : (initialise s).bus = s.bus := rfl
@[simp] theorem initialise_trace (s : State) : (initialise s).trace = s.trace := rfl
@[simp] theorem initialise_returned (s : State) : (initialise s).returned = s.returned := rfl
@[simp] theorem initialise_hostQueue (s : State) : (initialise s).hostQueue = s.hostQueue := rfl
@[simp] theorem initialise_cfg (s : State) : (initialise s).cfg = s.cfg := rfl

@[simp] theorem leaveMode_mode (s : State) : (leaveMode s).mode = s.mode := rfl
@[simp] theorem leaveMode_enHblank (s : State) : (leaveMode s).enHblank = s.enHblank := rfl
@[simp] theorem leaveMode_enVblank (s : State) : (leaveMode s).enVblank = s.enVblank := rfl
@[simp] theorem leaveMode_enOam (s : State) : (leaveMode s).enOam = s.enOam := rfl
@[simp] theorem leaveMode_enLyc (s : State) : (leaveMode s).enLyc = s.enLyc := rfl
@[simp] theorem leaveMode_stat7 (s : State) : (leaveMode s).stat7 = s.stat7 := rfl
@[simp] theorem leaveMode_coinc (s : State) : (leaveMode s).coinc = s.coinc := rfl
@[simp] theorem leaveMode_ly (s : State) : (leaveMode s).ly = s.ly := rfl
@[simp] theorem leaveMode_lyc (s : State) : (leaveMode s).lyc = s.lyc := rfl
@[simp] theorem leaveMode_acc (s : State) :
    (leaveMode s).acc = s.acc - threshold s.mode := rfl
@[simp] theorem leaveMode_buf (s : State) : (leaveMode s).buf = s.buf := rfl
@[simp] theorem leaveMode_run (s : State) : (leaveMode s).run = s.run := rfl
@[simp] theorem leaveMode_bus (s : State) : (leaveMode s).bus = s.bus := rfl
@[simp] theorem leaveMode_trace (s : State) : (leaveMode s).trace = s.trace := rfl
@[simp] theorem leaveMode_returned (s : State) : (leaveMode s).returned = s.returned := rfl
@[simp] theorem leaveMode_hostQueue (s : State) : (leaveMode s).hostQueue = s.hostQueue := rfl
@[simp] theorem leaveMode_cfg (s : State) : (leaveMode s).cfg = s.cfg := rfl

@[simp] theorem clearBuffer_mode (s : State) : (clearBuffer s).mode = s.mode := rfl
@[simp] theorem clearBuffer_enHblank (s : State) : (clearBuffer s).enHblank = s.enHblank := rfl
@[simp] theorem clearBuffer_enVblank (s : State) : (clearBuffer s).enVblank = s.enVblank := rfl
@[simp] theorem clearBuffer_enOam (s : State) : (clearBuffer s).enOam = s.enOam := rfl
@[simp] theorem clearBuffer_enLyc (s : State) : (clearBuffer s).enLyc = s.enLyc := rfl
@[simp] theorem clearBuffer_stat7 (s : State) : (clearBuffer s).stat7 = s.stat7 := rfl
@[simp] theorem clearBuffer_coinc (s : State) : (clearBuffer s).coinc = s.coinc := rfl
@[simp] theorem clearBuffer_ly (s : State) : (clearBuffer s).ly = s.ly := rfl
@[simp] theorem clearBuffer_lyc (s : State) : (clearBuffer s).lyc = s.lyc := rfl
@[simp] theorem clearBuffer_acc (s : State) : (clearBuffer s).acc = s.acc := rfl
@[simp] theorem clearBuffer_buf (s : State) :
    (clearBuffer s).buf = blankBuffer := rfl
@[simp] theorem clearBuffer_run (s : State) : (clearBuffer s).run = s.run := rfl
@[simp] theorem clearBuffer_bus (s : State) : (clearBuffer s).bus = s.bus := rfl
@[simp] theorem clearBuffer_trace (s : State) : (clearBuffer s).trace = s.trace := rfl
@[simp] theorem clearBuffer_returned (s : State) : (clearBuffer s).returned = s.returned := rfl
@[simp] theorem clearBuffer_hostQueue (s : State) : (clearBuffer s).hostQueue = s.hostQueue := rfl
@[simp] theorem clearBuffer_cfg (s : State) : (clearBuffer s).cfg = s.cfg := rfl

@[simp] theorem renderLine_mode (line : Fin 144) (s : State) : (renderLine line s).mode = s.mode := rfl
@[simp] theorem renderLine_enHblank (line : Fin 144) (s : State) : (renderLine line s).enHblank = s.enHblank := rfl
@[simp] theorem renderLine_enVblank (line : Fin 144) (s : State) : (renderLine line s).enVblank = s.enVblank := rfl
@[simp] theorem renderLine_enOam (line : Fin 144) (s : State) : (renderLine line s).enOam = s.enOam := rfl
@[simp] theorem renderLine_enLyc (line : Fin 144) (s : State) : (renderLine line s).enLyc = s.enLyc := rfl
@[simp] theorem renderLine_stat7 (line : Fin 144) (s : State) : (renderLine line s).stat7 = s.stat7 := rfl
@[simp] theorem renderLine_coinc (line : Fin 144) (s : State) : (renderLine line s).coinc = s.coinc := rfl
@[simp] theorem renderLine_ly (line : Fin 144) (s : State) : (renderLine line s).ly = s.ly := rfl
@[simp] theorem renderLine_lyc (line : Fin 144) (s : State) : (renderLine line s).lyc = s.lyc := rfl
@[simp] theorem renderLine_acc (line : Fin 144) (s : State) : (renderLine line s).acc = s.acc := rfl
@[simp] theorem renderLine_buf (line : Fin 144) (s : State) :
    (renderLine line s).buf = s.buf.set line (linePixels s.cfg s.bus line) := rfl
@[simp] theorem renderLine_run (line : Fin 144) (s : State) : (renderLine line s).run = s.run := rfl
@[simp] theorem renderLine_bus (line : Fin 144) (s : State) : (renderLine line s).bus = s.bus := rfl
@[simp] theorem renderLine_trace (line : Fin 144) (s : State) :
    (renderLine line s).trace = s.trace ++ lineReads s.cfg s.bus line := rfl
@[simp] theorem renderLine_returned (line : Fin 144) (s : State) : (renderLine line s).returned = s.returned := rfl
@[simp] theorem renderLine_hostQueue (line : Fin 144) (s : State) : (renderLine line s).hostQueue = s.hostQueue := rfl
@[simp] theorem renderLine_cfg (line : Fin 144) (s : State) : (renderLine line s).cfg = s.cfg := rfl

@[simp] theorem completeFrame_mode (s : State) : (completeFrame s).mode = s.mode := rfl
@[simp] theorem completeFrame_enHblank (s : State) : (completeFrame s).enHblank = s.enHblank := rfl
@[simp] theorem completeFrame_enVblank (s : State) : (completeFrame s).enVblank = s.enVblank := rfl
@[simp] theorem completeFrame_enOam (s : State) : (completeFrame s).enOam = s.enOam := rfl
@[simp] theorem completeFrame_enLyc (s : State) : (completeFrame s).enLyc = s.enLyc := rfl
@[simp] theorem completeFrame_stat7 (s : State) : (completeFrame s).stat7 = s.stat7 := rfl
@[simp] theorem completeFrame_coinc (s : State) : (completeFrame s).coinc = s.coinc := rfl
@[simp] theorem completeFrame_ly (s : State) : (completeFrame s).ly = s.ly := rfl
@[simp] theorem completeFrame_lyc (s : State) : (completeFrame s).lyc = s.lyc := rfl
@[simp] theorem completeFrame_acc (s : State) : (completeFrame s).acc = s.acc := rfl
@[simp] theorem completeFrame_buf (s : State) : (completeFrame s).buf = s.buf := rfl
@[simp] theorem completeFrame_run (s : State) : (completeFrame s).run = s.run := rfl
@[simp] theorem completeFrame_bus (s : State) : (completeFrame s).bus = s.bus := rfl
@[simp] theorem completeFrame_trace (s : State) :
    (completeFrame s).trace = s.trace ++ busRdEvent s s.cfg.controlAddr :: if displayEnabled s then [.frameReady s.buf] else [] := rfl
@[simp] theorem completeFrame_returned (s : State) : (completeFrame s).returned = s.returned := rfl
@[simp] theorem completeFrame_hostQueue (s : State) : (completeFrame s).hostQueue = s.hostQueue := rfl
@[simp] theorem completeFrame_cfg (s : State) : (completeFrame s).cfg = s.cfg := rfl

@[simp] theorem decodeScanline_mode (line : Nat) (s : State) : (decodeScanline line s).mode = s.mode := by
  unfold decodeScanline; split <;> [split <;> rfl; rfl]
@[simp] theorem decodeScanline_enHblank (line : Nat) (s : State) : (decodeScanline line s).enHblank = s.enHblank := by
  unfold decodeScanline; split <;> [split <;> rfl; rfl]
@[simp] theorem decodeScanline_enVblank (line : Nat) (s : State) : (decodeScanline line s).enVblank = s.enVblank := by
  unfold decodeScanline; split <;> [split <;> rfl; rfl]
@[simp] theorem decodeScanline_enOam (line : Nat) (s : State) : (decodeScanline line s).enOam = s.enOam := by
  unfold decodeScanline; split <;> [split <;> rfl; rfl]
@[simp] theorem decodeScanline_enLyc (line : Nat) (s : State) : (decodeScanline line s).enLyc = s.enLyc := by
  unfold decodeScanline; split <;> [split <;> rfl; rfl]
@[simp] theorem decodeScanline_stat7 (line : Nat) (s : State) : (decodeScanline line s).stat7 = s.stat7 := by
  unfold decodeScanline; split <;> [split <;> rfl; rfl]
@[simp] theorem decodeScanline_coinc (line : Nat) (s : State) : (decodeScanline line s).coinc = s.coinc := by
  unfold decodeScanline; split <;> [split <;> rfl; rfl]
@[simp] theorem decodeScanline_ly (line : Nat) (s : State) : (decodeScanline line s).ly = s.ly := by
  unfold decodeScanline; split <;> [split <;> rfl; rfl]
@[simp] theorem decodeScanline_lyc (line : Nat) (s : State) : (decodeScanline line s).lyc = s.lyc := by
  unfold decodeScanline; split <;> [split <;> rfl; rfl]
@[simp] theorem decodeScanline_acc (line : Nat) (s : State) : (decodeScanline line s).acc = s.acc := by
  unfold decodeScanline; split <;> [split <;> rfl; rfl]
@[simp] theorem decodeScanline_run (line : Nat) (s : State) : (decodeScanline line s).run = s.run := by
  unfold decodeScanline; split <;> [split <;> rfl; rfl]
@[simp] theorem decodeScanline_bus (line : Nat) (s : State) : (decodeScanline line s).bus = s.bus := by
  unfold decodeScanline; split <;> [split <;> rfl; rfl]
@[simp] theorem decodeScanline_returned (line : Nat) (s : State) : (decodeScanline line s).returned = s.returned := by
  unfold decodeScanline; split <;> [split <;> rfl; rfl]
@[simp] theorem decodeScanline_hostQueue (line : Nat) (s : State) : (decodeScanline line s).hostQueue = s.hostQueue := by
  unfold decodeScanline; split <;> [split <;> rfl; rfl]
@[simp] theorem decodeScanline_cfg (line : Nat) (s : State) : (decodeScanline line s).cfg = s.cfg := by
  unfold decodeScanline; split <;> [split <;> rfl; rfl]

@[simp] theorem statModeEntry_mode (m : Mode) (s : State) : (statModeEntry m s).mode = s.mode := by
  unfold statModeEntry; split <;> rfl
@[simp] theorem statModeEntry_enHblank (m : Mode) (s : State) : (statModeEntry m s).enHblank = s.enHblank := by
  unfold statModeEntry; split <;> rfl
@[simp] theorem statModeEntry_enVblank (m : Mode) (s : State) : (statModeEntry m s).enVblank = s.enVblank := by
  unfold statModeEntry; split <;> rfl
@[simp] theorem statModeEntry_enOam (m : Mode) (s : State) : (statModeEntry m s).enOam = s.enOam := by
  unfold statModeEntry; split <;> rfl
@[simp] theorem statModeEntry_enLyc (m : Mode) (s : State) : (statModeEntry m s).enLyc = s.enLyc := by
  unfold statModeEntry; split <;> rfl
@[simp] theorem statModeEntry_stat7 (m : Mode) (s : State) : (statModeEntry m s).stat7 = s.stat7 := by
  unfold statModeEntry; split <;> rfl
@[simp] theorem statModeEntry_coinc (m : Mode) (s : State) : (statModeEntry m s).coinc = s.coinc := by
  unfold statModeEntry; split <;> rfl
@[simp] theorem statModeEntry_ly (m : Mode) (s : State) : (statModeEntry m s).ly = s.ly := by
  unfold statModeEntry; split <;> rfl
@[simp] theorem statModeEntry_lyc (m : Mode) (s : State) : (statModeEntry m s).lyc = s.lyc := by
  unfold statModeEntry; split <;> rfl
@[simp] theorem statModeEntry_acc (m : Mode) (s : State) : (statModeEntry m s).acc = s.acc := by
  unfold statModeEntry; split <;> rfl
@[simp] theorem statModeEntry_buf (m : Mode) (s : State) : (statModeEntry m s).buf = s.buf := by
  unfold statModeEntry; split <;> rfl
@[simp] theorem statModeEntry_run (m : Mode) (s : State) : (statModeEntry m s).run = s.run := by
  unfold statModeEntry; split <;> rfl
@[simp] theorem statModeEntry_returned (m : Mode) (s : State) : (statModeEntry m s).returned = s.returned := by
  unfold statModeEntry; split <;> rfl
@[simp] theorem statModeEntry_hostQueue (m : Mode) (s : State) : (statModeEntry m s).hostQueue = s.hostQueue := by
  unfold statModeEntry; split <;> rfl
@[simp] theorem statModeEntry_cfg (m : Mode) (s : State) : (statModeEntry m s).cfg = s.cfg := by
  unfold statModeEntry; split <;> rfl

@[simp] theorem enter_mode (m : Mode) (s : State) :
    (enter m s).mode = m := by
  simp [enter]
@[simp] theorem enter_enHblank (m : Mode) (s : State) : (enter m s).enHblank = s.enHblank := by
  simp [enter]
@[simp] theorem enter_enVblank (m : Mode) (s : State) : (enter m s).enVblank = s.enVblank := by
  simp [enter]
@[simp] theorem enter_enOam (m : Mode) (s : State) : (enter m s).enOam = s.enOam := by
  simp [enter]
@[simp] theorem enter_enLyc (m : Mode) (s : State) : (enter m s).enLyc = s.enLyc := by
  simp [enter]
@[simp] theorem enter_stat7 (m : Mode) (s : State) : (enter m s).stat7 = s.stat7 := by
  simp [enter]
@[simp] theorem enter_coinc (m : Mode) (s : State) : (enter m s).coinc = s.coinc := by
  simp [enter]
@[simp] theorem enter_ly (m : Mode) (s : State) : (enter m s).ly = s.ly := by
  simp [enter]
@[simp] theorem enter_lyc (m : Mode) (s : State) : (enter m s).lyc = s.lyc := by
  simp [enter]
@[simp] theorem enter_acc (m : Mode) (s : State) : (enter m s).acc = s.acc := by
  simp [enter]
@[simp] theorem enter_buf (m : Mode) (s : State) : (enter m s).buf = s.buf := by
  simp [enter]
@[simp] theorem enter_run (m : Mode) (s : State) : (enter m s).run = s.run := by
  simp [enter]
@[simp] theorem enter_returned (m : Mode) (s : State) : (enter m s).returned = s.returned := by
  simp [enter]
@[simp] theorem enter_hostQueue (m : Mode) (s : State) : (enter m s).hostQueue = s.hostQueue := by
  simp [enter]
@[simp] theorem enter_cfg (m : Mode) (s : State) : (enter m s).cfg = s.cfg := by
  simp [enter]

@[simp] theorem coincidenceCheck_mode (s : State) : (coincidenceCheck s).mode = s.mode := by
  unfold coincidenceCheck; split <;> [(dsimp only; split <;> simp_all [request]); simp_all]
@[simp] theorem coincidenceCheck_enHblank (s : State) : (coincidenceCheck s).enHblank = s.enHblank := by
  unfold coincidenceCheck; split <;> [(dsimp only; split <;> simp_all [request]); simp_all]
@[simp] theorem coincidenceCheck_enVblank (s : State) : (coincidenceCheck s).enVblank = s.enVblank := by
  unfold coincidenceCheck; split <;> [(dsimp only; split <;> simp_all [request]); simp_all]
@[simp] theorem coincidenceCheck_enOam (s : State) : (coincidenceCheck s).enOam = s.enOam := by
  unfold coincidenceCheck; split <;> [(dsimp only; split <;> simp_all [request]); simp_all]
@[simp] theorem coincidenceCheck_enLyc (s : State) : (coincidenceCheck s).enLyc = s.enLyc := by
  unfold coincidenceCheck; split <;> [(dsimp only; split <;> simp_all [request]); simp_all]
@[simp] theorem coincidenceCheck_stat7 (s : State) : (coincidenceCheck s).stat7 = s.stat7 := by
  unfold coincidenceCheck; split <;> [(dsimp only; split <;> simp_all [request]); simp_all]
@[simp] theorem coincidenceCheck_coinc (s : State) :
    (coincidenceCheck s).coinc = coincides s := by
  unfold coincidenceCheck; split <;> [(dsimp only; split <;> simp_all [request]); simp_all]
@[simp] theorem coincidenceCheck_ly (s : State) : (coincidenceCheck s).ly = s.ly := by
  unfold coincidenceCheck; split <;> [(dsimp only; split <;> simp_all [request]); simp_all]
@[simp] theorem coincidenceCheck_lyc (s : State) : (coincidenceCheck s).lyc = s.lyc := by
  unfold coincidenceCheck; split <;> [(dsimp only; split <;> simp_all [request]); simp_all]
@[simp] theorem coincidenceCheck_acc (s : State) : (coincidenceCheck s).acc = s.acc := by
  unfold coincidenceCheck; split <;> [(dsimp only; split <;> simp_all [request]); simp_all]
@[simp] theorem coincidenceCheck_buf (s : State) : (coincidenceCheck s).buf = s.buf := by
  unfold coincidenceCheck; split <;> [(dsimp only; split <;> simp_all [request]); simp_all]
@[simp] theorem coincidenceCheck_run (s : State) : (coincidenceCheck s).run = s.run := by
  unfold coincidenceCheck; split <;> [(dsimp only; split <;> simp_all [request]); simp_all]
@[simp] theorem coincidenceCheck_returned (s : State) : (coincidenceCheck s).returned = s.returned := by
  unfold coincidenceCheck; split <;> [(dsimp only; split <;> simp_all [request]); simp_all]
@[simp] theorem coincidenceCheck_hostQueue (s : State) : (coincidenceCheck s).hostQueue = s.hostQueue := by
  unfold coincidenceCheck; split <;> [(dsimp only; split <;> simp_all [request]); simp_all]
@[simp] theorem coincidenceCheck_cfg (s : State) : (coincidenceCheck s).cfg = s.cfg := by
  unfold coincidenceCheck; split <;> [(dsimp only; split <;> simp_all [request]); simp_all]

@[simp] theorem hostWrite_mode (addr : Address) (v : Byte) (s : State) : (hostWrite addr v s).mode = s.mode := rfl
@[simp] theorem hostWrite_enHblank (addr : Address) (v : Byte) (s : State) : (hostWrite addr v s).enHblank = s.enHblank := rfl
@[simp] theorem hostWrite_enVblank (addr : Address) (v : Byte) (s : State) : (hostWrite addr v s).enVblank = s.enVblank := rfl
@[simp] theorem hostWrite_enOam (addr : Address) (v : Byte) (s : State) : (hostWrite addr v s).enOam = s.enOam := rfl
@[simp] theorem hostWrite_enLyc (addr : Address) (v : Byte) (s : State) : (hostWrite addr v s).enLyc = s.enLyc := rfl
@[simp] theorem hostWrite_stat7 (addr : Address) (v : Byte) (s : State) : (hostWrite addr v s).stat7 = s.stat7 := rfl
@[simp] theorem hostWrite_coinc (addr : Address) (v : Byte) (s : State) : (hostWrite addr v s).coinc = s.coinc := rfl
@[simp] theorem hostWrite_ly (addr : Address) (v : Byte) (s : State) : (hostWrite addr v s).ly = s.ly := rfl
@[simp] theorem hostWrite_lyc (addr : Address) (v : Byte) (s : State) : (hostWrite addr v s).lyc = s.lyc := rfl
@[simp] theorem hostWrite_acc (addr : Address) (v : Byte) (s : State) : (hostWrite addr v s).acc = s.acc := rfl
@[simp] theorem hostWrite_buf (addr : Address) (v : Byte) (s : State) : (hostWrite addr v s).buf = s.buf := rfl
@[simp] theorem hostWrite_run (addr : Address) (v : Byte) (s : State) : (hostWrite addr v s).run = s.run := rfl
@[simp] theorem hostWrite_bus (addr : Address) (v : Byte) (s : State) :
    (hostWrite addr v s).bus = s.bus.write addr v := rfl
@[simp] theorem hostWrite_trace (addr : Address) (v : Byte) (s : State) : (hostWrite addr v s).trace = s.trace := rfl
@[simp] theorem hostWrite_returned (addr : Address) (v : Byte) (s : State) : (hostWrite addr v s).returned = s.returned := rfl
@[simp] theorem hostWrite_hostQueue (addr : Address) (v : Byte) (s : State) : (hostWrite addr v s).hostQueue = s.hostQueue := rfl
@[simp] theorem hostWrite_cfg (addr : Address) (v : Byte) (s : State) : (hostWrite addr v s).cfg = s.cfg := rfl

@[simp] theorem hostFill_mode (addr : Address) (len : Nat) (v : Byte) (s : State) : (hostFill addr len v s).mode = s.mode := rfl
@[simp] theorem hostFill_enHblank (addr : Address) (len : Nat) (v : Byte) (s : State) : (hostFill addr len v s).enHblank = s.enHblank := rfl
@[simp] theorem hostFill_enVblank (addr : Address) (len : Nat) (v : Byte) (s : State) : (hostFill addr len v s).enVblank = s.enVblank := rfl
@[simp] theorem hostFill_enOam (addr : Address) (len : Nat) (v : Byte) (s : State) : (hostFill addr len v s).enOam = s.enOam := rfl
@[simp] theorem hostFill_enLyc (addr : Address) (len : Nat) (v : Byte) (s : State) : (hostFill addr len v s).enLyc = s.enLyc := rfl
@[simp] theorem hostFill_stat7 (addr : Address) (len : Nat) (v : Byte) (s : State) : (hostFill addr len v s).stat7 = s.stat7 := rfl
@[simp] theorem hostFill_coinc (addr : Address) (len : Nat) (v : Byte) (s : State) : (hostFill addr len v s).coinc = s.coinc := rfl
@[simp] theorem hostFill_ly (addr : Address) (len : Nat) (v : Byte) (s : State) : (hostFill addr len v s).ly = s.ly := rfl
@[simp] theorem hostFill_lyc (addr : Address) (len : Nat) (v : Byte) (s : State) : (hostFill addr len v s).lyc = s.lyc := rfl
@[simp] theorem hostFill_acc (addr : Address) (len : Nat) (v : Byte) (s : State) : (hostFill addr len v s).acc = s.acc := rfl
@[simp] theorem hostFill_buf (addr : Address) (len : Nat) (v : Byte) (s : State) : (hostFill addr len v s).buf = s.buf := rfl
@[simp] theorem hostFill_run (addr : Address) (len : Nat) (v : Byte) (s : State) : (hostFill addr len v s).run = s.run := rfl
@[simp] theorem hostFill_bus (addr : Address) (len : Nat) (v : Byte) (s : State) :
    (hostFill addr len v s).bus = s.bus.fill addr len v := rfl
@[simp] theorem hostFill_trace (addr : Address) (len : Nat) (v : Byte) (s : State) : (hostFill addr len v s).trace = s.trace := rfl
@[simp] theorem hostFill_returned (addr : Address) (len : Nat) (v : Byte) (s : State) : (hostFill addr len v s).returned = s.returned := rfl
@[simp] theorem hostFill_hostQueue (addr : Address) (len : Nat) (v : Byte) (s : State) : (hostFill addr len v s).hostQueue = s.hostQueue := rfl
@[simp] theorem hostFill_cfg (addr : Address) (len : Nat) (v : Byte) (s : State) : (hostFill addr len v s).cfg = s.cfg := rfl

@[simp] theorem hostClearIf_mode (s : State) : (hostClearIf s).mode = s.mode := rfl
@[simp] theorem hostClearIf_enHblank (s : State) : (hostClearIf s).enHblank = s.enHblank := rfl
@[simp] theorem hostClearIf_enVblank (s : State) : (hostClearIf s).enVblank = s.enVblank := rfl
@[simp] theorem hostClearIf_enOam (s : State) : (hostClearIf s).enOam = s.enOam := rfl
@[simp] theorem hostClearIf_enLyc (s : State) : (hostClearIf s).enLyc = s.enLyc := rfl
@[simp] theorem hostClearIf_stat7 (s : State) : (hostClearIf s).stat7 = s.stat7 := rfl
@[simp] theorem hostClearIf_coinc (s : State) : (hostClearIf s).coinc = s.coinc := rfl
@[simp] theorem hostClearIf_ly (s : State) : (hostClearIf s).ly = s.ly := rfl
@[simp] theorem hostClearIf_lyc (s : State) : (hostClearIf s).lyc = s.lyc := rfl
@[simp] theorem hostClearIf_acc (s : State) : (hostClearIf s).acc = s.acc := rfl
@[simp] theorem hostClearIf_buf (s : State) : (hostClearIf s).buf = s.buf := rfl
@[simp] theorem hostClearIf_run (s : State) : (hostClearIf s).run = s.run := rfl
@[simp] theorem hostClearIf_bus (s : State) :
    (hostClearIf s).bus = s.bus.write s.cfg.ifAddr 0 := rfl
@[simp] theorem hostClearIf_trace (s : State) : (hostClearIf s).trace = s.trace := rfl
@[simp] theorem hostClearIf_returned (s : State) : (hostClearIf s).returned = s.returned := rfl
@[simp] theorem hostClearIf_hostQueue (s : State) : (hostClearIf s).hostQueue = s.hostQueue := rfl
@[simp] theorem hostClearIf_cfg (s : State) : (hostClearIf s).cfg = s.cfg := rfl

@[simp] theorem issueFirst_mode (w : TxWord) (n : Int) (s : State) : (issueFirst w n s).mode = s.mode := rfl
@[simp] theorem issueFirst_enHblank (w : TxWord) (n : Int) (s : State) : (issueFirst w n s).enHblank = s.enHblank := rfl
@[simp] theorem issueFirst_enVblank (w : TxWord) (n : Int) (s : State) : (issueFirst w n s).enVblank = s.enVblank := rfl
@[simp] theorem issueFirst_enOam (w : TxWord) (n : Int) (s : State) : (issueFirst w n s).enOam = s.enOam := rfl
@[simp] theorem issueFirst_enLyc (w : TxWord) (n : Int) (s : State) : (issueFirst w n s).enLyc = s.enLyc := rfl
@[simp] theorem issueFirst_stat7 (w : TxWord) (n : Int) (s : State) : (issueFirst w n s).stat7 = s.stat7 := rfl
@[simp] theorem issueFirst_coinc (w : TxWord) (n : Int) (s : State) : (issueFirst w n s).coinc = s.coinc := rfl
@[simp] theorem issueFirst_ly (w : TxWord) (n : Int) (s : State) : (issueFirst w n s).ly = s.ly := rfl
@[simp] theorem issueFirst_lyc (w : TxWord) (n : Int) (s : State) : (issueFirst w n s).lyc = s.lyc := rfl
@[simp] theorem issueFirst_acc (w : TxWord) (n : Int) (s : State) : (issueFirst w n s).acc = s.acc := rfl
@[simp] theorem issueFirst_buf (w : TxWord) (n : Int) (s : State) : (issueFirst w n s).buf = s.buf := rfl
@[simp] theorem issueFirst_run (w : TxWord) (n : Int) (s : State) : (issueFirst w n s).run = s.run := rfl
@[simp] theorem issueFirst_bus (w : TxWord) (n : Int) (s : State) : (issueFirst w n s).bus = s.bus := rfl
@[simp] theorem issueFirst_trace (w : TxWord) (n : Int) (s : State) : (issueFirst w n s).trace = s.trace := rfl
@[simp] theorem issueFirst_returned (w : TxWord) (n : Int) (s : State) : (issueFirst w n s).returned = s.returned := rfl
@[simp] theorem issueFirst_hostQueue (w : TxWord) (n : Int) (s : State) :
    (issueFirst w n s).hostQueue = .issue w n :: s.hostQueue := rfl
@[simp] theorem issueFirst_cfg (w : TxWord) (n : Int) (s : State) : (issueFirst w n s).cfg = s.cfg := rfl

end Sys2Proof.Machine
end

