-- ==== Sys2Proof/Laws/Ops.lean ====
section
/-! SUPPORT. What the shared operations can do, said once: the guards, the interrupt request and the host's moves. -/

namespace Sys2Proof.Machine

theorem whenRunning_of_ready {s : State} (h : Ready s) (k : State → Host.Outcome State Fault Refusal) :
    whenRunning s k = k s := by
  simp [whenRunning, whenAdmitted, h.1, h.2]

/-- An operation under the guard that answers a next state was ready and ran its own rule. -/
theorem ready_of_whenRunning_next {s t : State} {k : State → Host.Outcome State Fault Refusal}
    (h : whenRunning s k = .next t) : Ready s ∧ k s = .next t := by
  unfold whenRunning whenAdmitted at h
  split at h
  · dsimp only at h
    split at h <;> first | cases h | exact ⟨⟨‹_›, ‹_›⟩, h⟩
  · cases h

theorem whenRunning_of_uninit {s : State} (hc : configAdmitted s.cfg = true) (h : s.run = .uninit)
    (k : State → Host.Outcome State Fault Refusal) : whenRunning s k = .refused .notInitialised := by
  simp [whenRunning, whenAdmitted, hc, h]

theorem whenRunning_of_faulted {s : State} {e : Error} (hc : configAdmitted s.cfg = true) (h : s.run = .faulted e)
    (k : State → Host.Outcome State Fault Refusal) : whenRunning s k = .fault (.stuck e) := by
  simp [whenRunning, whenAdmitted, hc, h]

theorem whenAdmitted_of_not {s : State} (h : configAdmitted s.cfg = false)
    (k : State → Host.Outcome State Fault Refusal) : whenAdmitted s k = .refused .configurationNotAdmitted := by
  simp [whenAdmitted, h]

/-- The bit that a request ORs into IF is not zero, so IF is listed afterwards. -/
theorem oneBit_or_ne_unlisted (v : Byte) (bit : Fin 8) : v ||| (1#8 <<< bit.val) ≠ Memory.unlisted := by
  intro h
  have := congrArg (fun x : Byte => x.getLsbD bit.val) h
  simp [Memory.unlisted, bit.isLt] at this

/-- IfSet's whole effect on IF (20_memory.md R55). -/
@[simp] theorem ifSet_read_ifAddr (bit : Fin 8) (s : State) :
    (ifSet bit s).bus.read s.cfg.ifAddr = s.bus.read s.cfg.ifAddr ||| (1#8 <<< bit.val) :=
  Memory.read_write_of_ne _ _ (oneBit_or_ne_unlisted _ _)

/-- IfSet touches no other byte (20_memory.md R53). -/
theorem ifSet_read_other (bit : Fin 8) (s : State) {a : Address} (h : a ≠ s.cfg.ifAddr) :
    (ifSet bit s).bus.read a = s.bus.read a :=
  Memory.read_write_other _ _ h

theorem whenReached_next {edge : Bool} {s t : State} {k : State → State} (h : whenReached edge s k = .next t) :
    edge = true ∧ t = k s := by
  unfold whenReached at h
  split at h
  · exact ⟨‹_›, by injection h with h; exact h.symm⟩
  · cases h

theorem atEdge_iff {m : Mode} {s : State} : atEdge m s = true ↔ s.mode = m ∧ threshold m ≤ s.acc := by
  simp [atEdge]

/-- A step makes the host's first move on the state without it. -/
theorem step_cons {s : State} {m : HostMove} {rest : List HostMove} (h : s.hostQueue = m :: rest) :
    step s = perform m { s with hostQueue := rest } := by
  simp [step, nextMove, h]

theorem step_nil {s : State} (h : s.hostQueue = []) : step s = idle s := by
  simp [step, nextMove, h]

/-- An idle step that answers a next state changes nothing. -/
theorem idle_next {s t : State} (h : idle s = .next t) : t = s := by
  unfold idle at h
  split at h <;> first | (injection h with h; exact h.symm) | cases h

end Sys2Proof.Machine
end

