-- ==== Sys2Proof/Laws/Timing.lean ====
section
/-! SUPPORT. The transition loop: what one edge takes off the accumulator, what it leaves alone, and the loop's end. -/

namespace Sys2Proof.Machine

theorem threshold_ge_80 (m : Mode) : 80 ≤ threshold m := by cases m <;> decide

@[simp] theorem enterVblank_acc (s : State) : (enterVblank s).acc = s.acc := by simp [enterVblank]
@[simp] theorem enterVblank_cfg (s : State) : (enterVblank s).cfg = s.cfg := by simp [enterVblank]
@[simp] theorem enterVblank_run (s : State) : (enterVblank s).run = s.run := by simp [enterVblank]
@[simp] theorem enterVblank_ly (s : State) : (enterVblank s).ly = s.ly := by simp [enterVblank]
@[simp] theorem enterVblank_mode (s : State) : (enterVblank s).mode = .vblank := by simp [enterVblank]
@[simp] theorem enterVblank_buf (s : State) : (enterVblank s).buf = s.buf := by simp [enterVblank]

@[simp] theorem enterVblank_enHblank (s : State) : (enterVblank s).enHblank = s.enHblank := by simp [enterVblank]
@[simp] theorem enterVblank_enVblank (s : State) : (enterVblank s).enVblank = s.enVblank := by simp [enterVblank]
@[simp] theorem enterVblank_enOam (s : State) : (enterVblank s).enOam = s.enOam := by simp [enterVblank]
@[simp] theorem enterVblank_enLyc (s : State) : (enterVblank s).enLyc = s.enLyc := by simp [enterVblank]
@[simp] theorem enterVblank_stat7 (s : State) : (enterVblank s).stat7 = s.stat7 := by simp [enterVblank]
@[simp] theorem enterVblank_lyc (s : State) : (enterVblank s).lyc = s.lyc := by simp [enterVblank]
@[simp] theorem enterVblank_returned (s : State) : (enterVblank s).returned = s.returned := by simp [enterVblank]
@[simp] theorem enterVblank_hostQueue (s : State) : (enterVblank s).hostQueue = s.hostQueue := by simp [enterVblank]
@[simp] theorem enterVblank_coinc (s : State) : (enterVblank s).coinc = s.coinc := by simp [enterVblank]

/-- The four transitions, by the mode being left: the cases of 40_timing_controller.md R100 with R105 and R106 split
at their lines. -/
theorem advance_cases (s : State) :
    (s.mode = .oam ∧ advance s = enter .xfer (leaveMode s)) ∨
    (s.mode = .xfer ∧ advance s = decodeScanline s.ly (enter .hblank (leaveMode s))) ∨
    (s.mode = .hblank ∧ s.ly + 1 = 144 ∧ advance s = enterVblank { leaveMode s with ly := 144 }) ∨
    (s.mode = .hblank ∧ s.ly + 1 ≠ 144 ∧ advance s = enter .oam { leaveMode s with ly := s.ly + 1 }) ∨
    (s.mode = .vblank ∧ s.ly + 1 ≤ 153 ∧ advance s = { leaveMode s with ly := s.ly + 1 }) ∨
    (s.mode = .vblank ∧ 153 < s.ly + 1 ∧ advance s = enter .oam { leaveMode s with ly := 0 }) := by
  cases hm : s.mode with
  | oam => simp [advance, transition, hm, transitionOam]
  | xfer => simp [advance, transition, hm, transitionXfer]
  | hblank =>
    by_cases h : s.ly + 1 = 144
    · have : s.ly = 143 := by omega
      simp [advance, transition, hm, transitionHblank, this]
    · simp [advance, transition, hm, transitionHblank, h]
  | vblank =>
    by_cases h : s.ly + 1 ≤ 153
    · simp [advance, transition, hm, transitionVblank, h, Nat.not_lt.mpr h]
    · simp [advance, transition, hm, transitionVblank, Nat.not_le.mp h]

/-- One edge subtracts the threshold of the mode it leaves (40_timing_controller.md R102). -/
@[simp] theorem advance_acc (s : State) : (advance s).acc = s.acc - threshold s.mode := by
  rcases advance_cases s with h | h | h | h | h | h <;> simp [h]

@[simp] theorem advance_cfg (s : State) : (advance s).cfg = s.cfg := by
  rcases advance_cases s with h | h | h | h | h | h <;> simp [h]

@[simp] theorem advance_run (s : State) : (advance s).run = s.run := by
  rcases advance_cases s with h | h | h | h | h | h <;> simp [h]

@[simp] theorem advance_enHblank (s : State) : (advance s).enHblank = s.enHblank := by
  rcases advance_cases s with h | h | h | h | h | h <;> simp [h]

@[simp] theorem advance_enVblank (s : State) : (advance s).enVblank = s.enVblank := by
  rcases advance_cases s with h | h | h | h | h | h <;> simp [h]

@[simp] theorem advance_enOam (s : State) : (advance s).enOam = s.enOam := by
  rcases advance_cases s with h | h | h | h | h | h <;> simp [h]

@[simp] theorem advance_enLyc (s : State) : (advance s).enLyc = s.enLyc := by
  rcases advance_cases s with h | h | h | h | h | h <;> simp [h]

@[simp] theorem advance_stat7 (s : State) : (advance s).stat7 = s.stat7 := by
  rcases advance_cases s with h | h | h | h | h | h <;> simp [h]

@[simp] theorem advance_lyc (s : State) : (advance s).lyc = s.lyc := by
  rcases advance_cases s with h | h | h | h | h | h <;> simp [h]

@[simp] theorem advance_returned (s : State) : (advance s).returned = s.returned := by
  rcases advance_cases s with h | h | h | h | h | h <;> simp [h]

@[simp] theorem advance_hostQueue (s : State) : (advance s).hostQueue = s.hostQueue := by
  rcases advance_cases s with h | h | h | h | h | h <;> simp [h]

@[simp] theorem advance_coinc (s : State) : (advance s).coinc = s.coinc := by
  rcases advance_cases s with h | h | h | h | h | h <;> simp [h]

/-- The mode after an edge (40_timing_controller.md R103 to R106). -/
theorem advance_mode (s : State) :
    (advance s).mode =
      match s.mode with
      | .oam => .xfer
      | .xfer => .hblank
      | .hblank => if s.ly + 1 = 144 then .vblank else .oam
      | .vblank => if s.ly + 1 ≤ 153 then .vblank else .oam := by
  rcases advance_cases s with ⟨h, h'⟩ | ⟨h, h'⟩ | ⟨h, hl, h'⟩ | ⟨h, hl, h'⟩ | ⟨h, hl, h'⟩ | ⟨h, hl, h'⟩
  · simp [h', h]
  · simp [h', h]
  · simp [h', h, hl]
  · simp only [h', h, enter_mode, if_neg hl]
  · simp only [h', h, leaveMode_mode, if_pos hl]
  · simp only [h', h, enter_mode, if_neg (Nat.not_le.mpr hl)]

/-- The line after an edge (40_timing_controller.md R103 to R106). -/
theorem advance_ly (s : State) :
    (advance s).ly =
      match s.mode with
      | .oam => s.ly
      | .xfer => s.ly
      | .hblank => s.ly + 1
      | .vblank => if s.ly + 1 ≤ 153 then s.ly + 1 else 0 := by
  rcases advance_cases s with ⟨h, h'⟩ | ⟨h, h'⟩ | ⟨h, hl, h'⟩ | ⟨h, hl, h'⟩ | ⟨h, hl, h'⟩ | ⟨h, hl, h'⟩
  · simp [h', h]
  · simp [h', h]
  · simp [h', h, hl]
  · simp only [h', h, enter_ly]
  · simp only [h', h, if_pos hl]
  · simp only [h', h, enter_ly, if_neg (Nat.not_le.mpr hl)]

/-- What every edge keeps, the loop keeps: the induction over the loop, packaged once. -/
theorem transitionLoop_induction {P : State → Prop} (hstep : ∀ s, threshold s.mode ≤ s.acc → P s → P (advance s))
    (fuel : Nat) {s : State} (h : P s) : P (transitionLoop fuel s) := by
  induction fuel generalizing s with
  | zero => exact h
  | succ fuel ih =>
    unfold transitionLoop
    split
    · exact ih (hstep s ‹_› h)
    · exact h

theorem runTransitions_induction {P : State → Prop} (hstep : ∀ s, threshold s.mode ≤ s.acc → P s → P (advance s))
    {s : State} (h : P s) : P (runTransitions s) :=
  transitionLoop_induction hstep _ h

/-- The accumulator is bound enough on the number of iterations (40_timing_controller.md R108). -/
theorem transitionLoop_acc_lt {fuel : Nat} {s : State} (h : s.acc ≤ fuel) :
    (transitionLoop fuel s).acc < threshold (transitionLoop fuel s).mode := by
  induction fuel generalizing s with
  | zero =>
    have := threshold_ge_80 s.mode
    simp only [transitionLoop]
    omega
  | succ fuel ih =>
    unfold transitionLoop
    split
    · have := threshold_ge_80 s.mode
      exact ih (by simp; omega)
    · omega

/-- The loop ends below the threshold: INV2 of 10_state.md R36. -/
theorem runTransitions_acc_lt (s : State) : (runTransitions s).acc < threshold (runTransitions s).mode :=
  transitionLoop_acc_lt (Nat.le_refl _)

/-- A larger bound changes nothing. -/
theorem transitionLoop_eq_of_le {fuel fuel' : Nat} {s : State} (h : s.acc ≤ fuel) (h' : s.acc ≤ fuel') :
    transitionLoop fuel s = transitionLoop fuel' s := by
  induction fuel generalizing fuel' s with
  | zero =>
    have := threshold_ge_80 s.mode
    cases fuel' with
    | zero => rfl
    | succ fuel' => rw [transitionLoop, transitionLoop, if_neg (by omega)]
  | succ fuel ih =>
    have := threshold_ge_80 s.mode
    cases fuel' with
    | zero => rw [transitionLoop, transitionLoop, if_neg (by omega)]
    | succ fuel' =>
      rw [transitionLoop, transitionLoop]
      split
      · exact ih (by simp; omega) (by simp; omega)
      · rfl

/-- The loop's test holds: one edge, then the loop again. -/
theorem runTransitions_of_le {s : State} (h : threshold s.mode ≤ s.acc) :
    runTransitions s = runTransitions (advance s) := by
  have := threshold_ge_80 s.mode
  obtain ⟨k, hk⟩ : ∃ k, s.acc = k + 1 := ⟨s.acc - 1, by omega⟩
  rw [runTransitions, hk, transitionLoop, if_pos h]
  exact transitionLoop_eq_of_le (by simp; omega) (by simp)

/-- The loop's test fails: nothing. -/
theorem runTransitions_of_lt {s : State} (h : s.acc < threshold s.mode) : runTransitions s = s := by
  unfold runTransitions
  cases hk : s.acc with
  | zero => rfl
  | succ k => rw [transitionLoop, if_neg (by omega)]

@[simp] theorem runTransitions_cfg (s : State) : (runTransitions s).cfg = s.cfg :=
  runTransitions_induction (P := fun t => t.cfg = s.cfg) (fun t _ h => by simp [h]) rfl

@[simp] theorem runTransitions_run (s : State) : (runTransitions s).run = s.run :=
  runTransitions_induction (P := fun t => t.run = s.run) (fun t _ h => by simp [h]) rfl

@[simp] theorem runTransitions_enHblank (s : State) : (runTransitions s).enHblank = s.enHblank :=
  runTransitions_induction (P := fun t => t.enHblank = s.enHblank) (fun t _ h => by simp [h]) rfl

@[simp] theorem runTransitions_enVblank (s : State) : (runTransitions s).enVblank = s.enVblank :=
  runTransitions_induction (P := fun t => t.enVblank = s.enVblank) (fun t _ h => by simp [h]) rfl

@[simp] theorem runTransitions_enOam (s : State) : (runTransitions s).enOam = s.enOam :=
  runTransitions_induction (P := fun t => t.enOam = s.enOam) (fun t _ h => by simp [h]) rfl

@[simp] theorem runTransitions_enLyc (s : State) : (runTransitions s).enLyc = s.enLyc :=
  runTransitions_induction (P := fun t => t.enLyc = s.enLyc) (fun t _ h => by simp [h]) rfl

@[simp] theorem runTransitions_stat7 (s : State) : (runTransitions s).stat7 = s.stat7 :=
  runTransitions_induction (P := fun t => t.stat7 = s.stat7) (fun t _ h => by simp [h]) rfl

@[simp] theorem runTransitions_lyc (s : State) : (runTransitions s).lyc = s.lyc :=
  runTransitions_induction (P := fun t => t.lyc = s.lyc) (fun t _ h => by simp [h]) rfl

@[simp] theorem runTransitions_returned (s : State) : (runTransitions s).returned = s.returned :=
  runTransitions_induction (P := fun t => t.returned = s.returned) (fun t _ h => by simp [h]) rfl

@[simp] theorem runTransitions_hostQueue (s : State) : (runTransitions s).hostQueue = s.hostQueue :=
  runTransitions_induction (P := fun t => t.hostQueue = s.hostQueue) (fun t _ h => by simp [h]) rfl

@[simp] theorem runTransitions_coinc (s : State) : (runTransitions s).coinc = s.coinc :=
  runTransitions_induction (P := fun t => t.coinc = s.coinc) (fun t _ h => by simp [h]) rfl

/-- The loop's end, from the start of a STEP of a non-negative count. -/
theorem stepCycles_eq (n : Nat) (s : State) :
    stepCycles n s = coincidenceCheck (runTransitions { s with acc := s.acc + n }) := rfl

end Sys2Proof.Machine
end

