-- ==== Sys2Proof/Laws/Exec.lean ====
section
/-! SUPPORT. What exec can do, said once: the guard every operation stands under, and one inversion lemma for its next
states. -/

namespace Sys2Proof.Machine

/-- Every operation but INIT and INVALID stands under the guard of 60_exceptions.md R205. -/
theorem exec_eq_whenRunning {i : Instr} (hv : isInvalid i = false) (hi : i ≠ .init) :
    ∃ k, ∀ s, exec i s = whenRunning s k := by
  cases i
  case invalid => simp [isInvalid] at hv
  case init => exact absurd rfl hi
  case step n => exact ⟨_, fun s => by unfold exec execStep; rfl⟩
  case readStatus => exact ⟨_, fun s => by unfold exec execReadStatus; rfl⟩
  case readScanline => exact ⟨_, fun s => by unfold exec execReadScanline; rfl⟩
  case readCompare => exact ⟨_, fun s => by unfold exec execReadCompare; rfl⟩
  case readUnmapped => exact ⟨_, fun s => by unfold exec execReadUnmapped; rfl⟩
  case writeStatus => exact ⟨_, fun s => by unfold exec execWriteStatus; rfl⟩
  case writeScanline => exact ⟨_, fun s => by unfold exec execWriteScanline; rfl⟩
  case writeCompare => exact ⟨_, fun s => by unfold exec execWriteCompare; rfl⟩
  case writeUnmapped => exact ⟨_, fun s => by unfold exec execWriteUnmapped; rfl⟩
  case tOamXfer => exact ⟨_, fun s => by unfold exec execTOamXfer; rfl⟩
  case tXferHblank => exact ⟨_, fun s => by unfold exec execTXferHblank; rfl⟩
  case tHblankOam => exact ⟨_, fun s => by unfold exec execTHblankOam; rfl⟩
  case tHblankVblank => exact ⟨_, fun s => by unfold exec execTHblankVblank; rfl⟩
  case tVblankLine => exact ⟨_, fun s => by unfold exec execTVblankLine; rfl⟩
  case tVblankOam => exact ⟨_, fun s => by unfold exec execTVblankOam; rfl⟩
  case statModeEntry => exact ⟨_, fun s => by unfold exec execStatModeEntry; rfl⟩
  case coincidenceCheck => exact ⟨_, fun s => by unfold exec execCoincidenceCheck; rfl⟩
  case decodeScanline => exact ⟨_, fun s => by unfold exec execDecodeScanline; rfl⟩
  case completeFrame => exact ⟨_, fun s => by unfold exec execCompleteFrame; rfl⟩

/-- An edge is reached in state `s`: its mode, its line, and the accumulator at the mode's threshold. -/
def EdgeOf (i : Instr) (s : State) : Prop :=
  threshold s.mode ≤ s.acc ∧
    ((i = .tOamXfer ∧ s.mode = .oam) ∨ (i = .tXferHblank ∧ s.mode = .xfer) ∨
     (i = .tHblankOam ∧ s.mode = .hblank ∧ s.ly + 1 ≠ 144) ∨ (i = .tHblankVblank ∧ s.mode = .hblank ∧ s.ly + 1 = 144) ∨
     (i = .tVblankLine ∧ s.mode = .vblank ∧ s.ly + 1 ≤ 153) ∨ (i = .tVblankOam ∧ s.mode = .vblank ∧ 153 < s.ly + 1))

/-- A reached edge is one iteration of STEP's loop. -/
theorem exec_of_edge {i : Instr} {s : State} (h : Ready s) (he : EdgeOf i s) : exec i s = .next (advance s) := by
  obtain ⟨ha, he⟩ := he
  rcases he with ⟨rfl, hm⟩ | ⟨rfl, hm⟩ | ⟨rfl, hm, hl⟩ | ⟨rfl, hm, hl⟩ | ⟨rfl, hm, hl⟩ | ⟨rfl, hm, hl⟩ <;>
    rw [hm] at ha <;>
    simp_all [exec, execTOamXfer, execTXferHblank, execTHblankOam, execTHblankVblank, execTVblankLine, execTVblankOam,
      whenRunning_of_ready h, whenReached, atEdge, advance, transition]

/-- Every way exec answers a next state. -/
theorem exec_next_cases {i : Instr} {s t : State} (h : exec i s = .next t) :
    (i = .init ∧ configAdmitted s.cfg = true ∧ t = initialise s) ∨
    (Ready s ∧
      ((∃ n, i = .step n ∧ 0 ≤ n ∧ t = stepCycles n.toNat s) ∨
       (∃ n, i = .step n ∧ n < 0 ∧ t = raise (.outOfRangeCycleCount n) s) ∨
       (i = .readStatus ∧ t = returnByte (statusValue s) s) ∨
       (i = .readScanline ∧ t = returnByte (scanlineValue s) s) ∨
       (i = .readCompare ∧ t = returnByte s.lyc s) ∨
       (∃ a, i = .readUnmapped a ∧ t = raise (.unmappedRegister a) s) ∨
       (∃ v, i = .writeStatus v ∧ t = storeStatus v s) ∨
       (∃ v, i = .writeScanline v ∧ t = { s with ly := 0 }) ∨
       (∃ v, i = .writeCompare v ∧ t = { s with lyc := v }) ∨
       (∃ a v, i = .writeUnmapped a v ∧ t = raise (.unmappedRegister a) s) ∨
       (isEdge i = true ∧ EdgeOf i s ∧ t = advance s) ∨
       (∃ m, i = .statModeEntry m ∧ t = statModeEntry m s) ∨
       (i = .coincidenceCheck ∧ t = coincidenceCheck s) ∨
       (∃ line, i = .decodeScanline line ∧ t = decodeScanline line s) ∨
       (i = .completeFrame ∧ t = completeFrame s))) := by
  cases i
  case invalid => cases h
  case init =>
    left
    simp only [exec, execInit, whenAdmitted] at h
    split at h
    · split at h
      · cases h
      · injection h with h
        exact ⟨rfl, ‹_›, h.symm⟩
      · injection h with h
        exact ⟨rfl, ‹_›, h.symm⟩
    · cases h
  case step n =>
    unfold exec execStep at h
    obtain ⟨hr, h⟩ := ready_of_whenRunning_next h
    refine .inr ⟨hr, ?_⟩
    by_cases hn : 0 ≤ n
    · rw [if_pos (by simpa [countInRange] using hn)] at h
      injection h with h
      exact .inl ⟨n, rfl, hn, h.symm⟩
    · rw [if_neg (by simpa [countInRange] using hn)] at h
      injection h with h
      exact .inr (.inl ⟨n, rfl, Int.not_le.mp hn, h.symm⟩)
  case tOamXfer =>
    have h₀ := h
    unfold exec execTOamXfer at h
    obtain ⟨hr, h⟩ := ready_of_whenRunning_next h
    obtain ⟨he, -⟩ := whenReached_next h
    have he := atEdge_iff.mp he
    have hedge : EdgeOf .tOamXfer s := ⟨by rw [he.1]; exact he.2, by simp [he.1]⟩
    have := (exec_of_edge hr hedge).symm.trans h₀
    injection this with this
    exact .inr ⟨hr, by simp [isEdge, hedge, this]⟩
  case tXferHblank =>
    have h₀ := h
    unfold exec execTXferHblank at h
    obtain ⟨hr, h⟩ := ready_of_whenRunning_next h
    obtain ⟨he, -⟩ := whenReached_next h
    have he := atEdge_iff.mp he
    have hedge : EdgeOf .tXferHblank s := ⟨by rw [he.1]; exact he.2, by simp [he.1]⟩
    have := (exec_of_edge hr hedge).symm.trans h₀
    injection this with this
    exact .inr ⟨hr, by simp [isEdge, hedge, this]⟩
  case tHblankOam =>
    have h₀ := h
    unfold exec execTHblankOam at h
    obtain ⟨hr, h⟩ := ready_of_whenRunning_next h
    obtain ⟨he, -⟩ := whenReached_next h
    simp only [Bool.and_eq_true, atEdge_iff, bne_iff_ne] at he
    have hedge : EdgeOf .tHblankOam s := ⟨by rw [he.1.1]; exact he.1.2, by simp [he.1.1]; omega⟩
    have := (exec_of_edge hr hedge).symm.trans h₀
    injection this with this
    exact .inr ⟨hr, by simp [isEdge, hedge, this]⟩
  case tHblankVblank =>
    have h₀ := h
    unfold exec execTHblankVblank at h
    obtain ⟨hr, h⟩ := ready_of_whenRunning_next h
    obtain ⟨he, -⟩ := whenReached_next h
    simp only [Bool.and_eq_true, atEdge_iff, beq_iff_eq] at he
    have hedge : EdgeOf .tHblankVblank s := ⟨by rw [he.1.1]; exact he.1.2, by simp [he.1.1]; omega⟩
    have := (exec_of_edge hr hedge).symm.trans h₀
    injection this with this
    exact .inr ⟨hr, by simp [isEdge, hedge, this]⟩
  case tVblankLine =>
    have h₀ := h
    unfold exec execTVblankLine at h
    obtain ⟨hr, h⟩ := ready_of_whenRunning_next h
    obtain ⟨he, -⟩ := whenReached_next h
    simp only [Bool.and_eq_true, atEdge_iff, decide_eq_true_eq] at he
    have hedge : EdgeOf .tVblankLine s := ⟨by rw [he.1.1]; exact he.1.2, by simp [he.1.1]; omega⟩
    have := (exec_of_edge hr hedge).symm.trans h₀
    injection this with this
    exact .inr ⟨hr, by simp [isEdge, hedge, this]⟩
  case tVblankOam =>
    have h₀ := h
    unfold exec execTVblankOam at h
    obtain ⟨hr, h⟩ := ready_of_whenRunning_next h
    obtain ⟨he, -⟩ := whenReached_next h
    simp only [Bool.and_eq_true, atEdge_iff, decide_eq_true_eq] at he
    have hedge : EdgeOf .tVblankOam s := ⟨by rw [he.1.1]; exact he.1.2, by simp [he.1.1]; omega⟩
    have := (exec_of_edge hr hedge).symm.trans h₀
    injection this with this
    exact .inr ⟨hr, by simp [isEdge, hedge, this]⟩
  all_goals
    simp only [exec, execReadStatus, execReadScanline, execReadCompare, execReadUnmapped, execWriteStatus,
      execWriteScanline, execWriteCompare, execWriteUnmapped, execStatModeEntry, execCoincidenceCheck,
      execDecodeScanline, execCompleteFrame] at h
    obtain ⟨hr, h⟩ := ready_of_whenRunning_next h
    injection h with h
    subst h
    exact .inr ⟨hr, by simp [isEdge]⟩

end Sys2Proof.Machine
end

