-- ==== Sys2Proof/Laws/Renderer.lean ====
section
/-! SUPPORT. What a decode reads and writes, said once: the bytes it depends on, the row it gives, its reads, and what
the operations add to a filtered trace. -/

namespace Sys2Proof.Machine

/-- An address beyond a window of `n` bytes from `b` is none of its addresses (20_memory.md R54). -/
theorem window_ne {b a : Address} {k n : Nat} (hk : k < n) (hn : n < 65536) (h : n ≤ (a - b).toNat) :
    b + BitVec.ofNat 16 k ≠ a := by
  rintro rfl
  rw [BitVec.add_comm, BitVec.add_sub_cancel, BitVec.toNat_ofNat, Nat.mod_eq_of_lt (by omega)] at h
  omega

theorem ofNat_add_one (b : Address) (k : Nat) : b + BitVec.ofNat 16 k + 1 = b + BitVec.ofNat 16 (k + 1) := by
  rw [BitVec.add_assoc]
  congr 1
  apply BitVec.eq_of_toNat_eq
  simp

/-- No decode reads the address: not SCROLL-Y, not a map entry, not a plane byte. -/
def Unread (cfg : Config) (a : Address) : Prop :=
  cfg.scrollYAddr ≠ a ∧ (∀ row slot, row < 256 → slot < 20 → mapAddr cfg (row / 8) slot ≠ a) ∧
    ∀ idx row, tileAddr cfg idx (row % 8) ≠ a ∧ tileAddr cfg idx (row % 8) + 1 ≠ a

theorem unread_of_window {cfg : Config} {a : Address} (hs : a ≠ cfg.scrollYAddr)
    (hm : 1024 ≤ (a - cfg.mapBase).toNat) (ht : 4096 ≤ (a - cfg.tileBase).toNat) : Unread cfg a := by
  refine ⟨hs.symm, fun row slot hr hl => window_ne (by omega) (by omega) hm, fun idx row => ?_⟩
  have := idx.isLt
  refine ⟨window_ne (by omega) (by omega) ht, ?_⟩
  rw [tileAddr, ofNat_add_one]
  exact window_ne (by omega) (by omega) ht

/-- Under an admitted configuration no decode and no complete_frame reads IF (20_memory.md R54). -/
theorem ifAddr_unread {cfg : Config} (h : configAdmitted cfg = true) :
    Unread cfg cfg.ifAddr ∧ cfg.controlAddr ≠ cfg.ifAddr := by
  simp only [configAdmitted, ifApart, Bool.and_eq_true, bne_iff_ne, decide_eq_true_eq] at h
  obtain ⟨⟨-, ⟨⟨hs, hc⟩, hm⟩, ht⟩, -⟩ := h
  exact ⟨unread_of_window hs hm ht, hc.symm⟩

theorem resolve_of_admitted {cfg : Config} (h : configAdmitted cfg = true) : cfg.resolve = Resolve.or := by
  simp only [configAdmitted, Bool.and_eq_true, beq_iff_eq] at h
  exact h.2

theorem backgroundRow_lt (line : Nat) (scy : Byte) : backgroundRow line scy < 256 := Nat.mod_lt _ (by omega)

/-- A fetch is the same on two buses that differ only where no decode reads. -/
theorem fetchSlot_congr {cfg : Config} {b b' : Memory} {a : Address} (ha : Unread cfg a)
    (h : ∀ x, x ≠ a → b'.read x = b.read x) {row slot : Nat} (hr : row < 256) (hs : slot < 20) :
    fetchSlot cfg b' row slot = fetchSlot cfg b row slot := by
  simp only [fetchSlot, h _ (ha.2.1 row slot hr hs), h _ (ha.2.2 _ row).1, h _ (ha.2.2 _ row).2]

/-- So are the pixels of a line. -/
theorem linePixels_congr {cfg : Config} {b b' : Memory} {a : Address} (ha : Unread cfg a)
    (h : ∀ x, x ≠ a → b'.read x = b.read x) (line : Nat) : linePixels cfg b' line = linePixels cfg b line := by
  unfold linePixels
  congr 1
  funext x
  have := x.isLt
  simp only [linePixel, scrollY, h _ ha.1, fetchSlot_congr ha h (backgroundRow_lt _ _) (show x.val / 8 < 20 by omega)]

/-- And its traced reads. -/
theorem lineReads_congr {cfg : Config} {b b' : Memory} {a : Address} (ha : Unread cfg a)
    (h : ∀ x, x ≠ a → b'.read x = b.read x) (line : Nat) : lineReads cfg b' line = lineReads cfg b line := by
  simp only [lineReads, scrollY, h _ ha.1, List.flatMap]
  congr 2
  apply List.map_congr_left
  intro slot hs
  rw [fetchSlot_congr ha h (backgroundRow_lt _ _) (by simpa using hs)]

/-- The renderer's pixel is the background pixel in plain arithmetic, for the RESOLVE the spec admits. -/
theorem linePixel_eq {cfg : Config} (hc : cfg.resolve = Resolve.or) (bus : Memory) (line x : Nat) :
    linePixel cfg bus line x = shade (backgroundDark cfg bus line x) := by
  have hr : ∀ a b, resolvePixel Resolve.or a b = shade (a || b) := by decide
  have hadd : ∀ (b : Address) k, b + BitVec.ofNat 16 k = BitVec.ofNat 16 (b.toNat + k) := by
    intro b k
    apply BitVec.eq_of_toNat_eq
    simp
  have hone : ∀ k, BitVec.ofNat 16 k + 1 = BitVec.ofNat 16 (k + 1) := by
    intro k
    apply BitVec.eq_of_toNat_eq
    simp
  simp only [linePixel, fetchSlot, unpack, hc, hr, backgroundDark, backgroundRow, scrollY, mapAddr, tileAddr, hadd, hone,
    Nat.add_assoc, columnBit]
  cases cfg.pixelOrder <;> simp

theorem getElem_set_row {buf : Buffer} {l y : Nat} (hl : l < 144) (hy : y < 144) (p : Line) :
    (buf.set l p hl)[y] = if y = l then p else buf[y] := by
  simp [Vector.getElem_set, eq_comm]

/-- The buffer after the decode of a visible line (42_renderer.md R161, R165). -/
theorem decodeScanline_buf_of_lt {line : Nat} (hl : line < 144) (s : State) :
    (decodeScanline line s).buf =
      (if line = 0 then blankBuffer else s.buf).set line (linePixels s.cfg s.bus line) hl := by
  unfold decodeScanline
  rw [dif_pos hl]
  split <;> rfl

theorem decodeScanline_row {line : Nat} (hl : line < 144) (s : State) :
    (decodeScanline line s).buf[line] = linePixels s.cfg s.bus line := by
  have : ∀ b : Buffer, b = (if line = 0 then blankBuffer else s.buf).set line (linePixels s.cfg s.bus line) hl →
      b[line] = linePixels s.cfg s.bus line := by
    rintro b rfl
    rw [getElem_set_row hl hl, if_pos rfl]
  exact this _ (decodeScanline_buf_of_lt hl s)

theorem decodeScanline_other_row {line y : Nat} (hl : line < 144) (hy : y < 144) (h : y ≠ line) (s : State) :
    (decodeScanline line s).buf[y] = (if line = 0 then blankBuffer else s.buf)[y] := by
  have : ∀ b : Buffer, b = (if line = 0 then blankBuffer else s.buf).set line (linePixels s.cfg s.bus line) hl →
      b[y] = (if line = 0 then blankBuffer else s.buf)[y] := by
    rintro b rfl
    rw [getElem_set_row hl hy, if_neg h]
  exact this _ (decodeScanline_buf_of_lt hl s)

theorem decodeScanline_pixel {line x : Nat} (hl : line < 144) (hx : x < 160) (s : State) :
    (decodeScanline line s).buf[line][x] = linePixel s.cfg s.bus line x := by
  have := congrArg (fun v : Line => v[x]) (decodeScanline_row hl s)
  simpa [linePixels] using this

/-- The events of a decode are bus reads. -/
theorem busRd_of_mem_lineReads {cfg : Config} {bus : Memory} {line : Nat} {e : Event}
    (h : e ∈ lineReads cfg bus line) : ∃ a v, e = .busRd a v := by
  simp only [lineReads, slotReads, List.mem_cons, List.mem_flatMap, List.not_mem_nil, or_false] at h
  rcases h with rfl | ⟨_, _, rfl | rfl | rfl⟩ <;> exact ⟨_, _, rfl⟩

/-- Of which there are 61 (42_renderer.md R167). -/
theorem length_lineReads (cfg : Config) (bus : Memory) (line : Nat) : (lineReads cfg bus line).length = 61 := by
  simp [lineReads, slotReads]

/-- A mode entry adds nothing to a trace filtered to other events. -/
theorem filter_trace_statModeEntry {f : Event → Bool} (hf : ∀ m, f (.irqReq .stat (.modeEntry m)) = false) (m : Mode)
    (s : State) : (statModeEntry m s).trace.filter f = s.trace.filter f := by
  unfold statModeEntry
  split <;> simp [hf]

theorem filter_trace_decodeScanline {f : Event → Bool} (hf : ∀ a v, f (.busRd a v) = false) (line : Nat) (s : State) :
    (decodeScanline line s).trace.filter f = s.trace.filter f := by
  have : ∀ cfg bus l, List.filter f (lineReads cfg bus l) = [] := by
    intro cfg bus l
    rw [List.filter_eq_nil_iff]
    intro e he
    obtain ⟨a, v, rfl⟩ := busRd_of_mem_lineReads he
    simp [hf]
  unfold decodeScanline
  split
  · split <;> simp [this]
  · rfl

theorem filter_trace_coincidenceCheck {f : Event → Bool} (hf : f (.irqReq .stat .coincidence) = false) (s : State) :
    (coincidenceCheck s).trace.filter f = s.trace.filter f := by
  unfold coincidenceCheck
  split
  · dsimp only
    split <;> simp [hf]
  · rfl

end Sys2Proof.Machine
end

