-- ==== Sys2Proof/Laws/Loop.lean ====
section
/-! SUPPORT. The transition loop as a whole: splitting a count, the position it ends at, and runs of V-Blank lines. -/

namespace Sys2Proof.Machine

/-- Add cycles to the accumulator. -/
def addCycles (b : Nat) (s : State) : State := { s with acc := s.acc + b }

theorem statModeEntry_addCycles (b : Nat) (m : Mode) (s : State) :
    statModeEntry m (addCycles b s) = addCycles b (statModeEntry m s) := by
  unfold statModeEntry
  rw [show modeEntryMask m (addCycles b s) = modeEntryMask m s from rfl]
  split <;> rfl

theorem enter_addCycles (b : Nat) (m : Mode) (s : State) : enter m (addCycles b s) = addCycles b (enter m s) :=
  statModeEntry_addCycles b m { s with mode := m }

theorem decodeScanline_addCycles (b line : Nat) (s : State) :
    decodeScanline line (addCycles b s) = addCycles b (decodeScanline line s) := by
  unfold decodeScanline
  split
  · split <;> rfl
  · rfl

theorem enterVblank_addCycles (b : Nat) (s : State) : enterVblank (addCycles b s) = addCycles b (enterVblank s) := by
  unfold enterVblank
  rw [show request .vblank .vblankEntry { addCycles b s with mode := .vblank } =
    addCycles b (request .vblank .vblankEntry { s with mode := .vblank }) from rfl, statModeEntry_addCycles]
  rfl

/-- Cycles above the threshold go through a transition unchanged: no transition reads the accumulator. -/
theorem transition_addCycles (b : Nat) (s : State) : transition (addCycles b s) = addCycles b (transition s) := by
  unfold transition
  rw [show (addCycles b s).mode = s.mode from rfl]
  cases s.mode <;> dsimp only
  · have : (if s.ly + 1 = 144 then enterVblank (addCycles b { s with ly := s.ly + 1 })
        else enter .oam (addCycles b { s with ly := s.ly + 1 })) =
        addCycles b (if s.ly + 1 = 144 then enterVblank { s with ly := s.ly + 1 }
          else enter .oam { s with ly := s.ly + 1 }) := by
      split
      · exact enterVblank_addCycles b _
      · exact enter_addCycles b _ _
    exact this
  · have : (if 153 < s.ly + 1 then enter .oam (addCycles b { s with ly := 0 })
        else addCycles b { s with ly := s.ly + 1 }) =
        addCycles b (if 153 < s.ly + 1 then enter .oam { s with ly := 0 } else { s with ly := s.ly + 1 }) := by
      split
      · exact enter_addCycles b _ _
      · rfl
    exact this
  · exact enter_addCycles b _ _
  · unfold transitionXfer
    rw [enter_addCycles]
    exact decodeScanline_addCycles b _ _

theorem advance_addCycles (b : Nat) {s : State} (h : threshold s.mode ≤ s.acc) :
    advance (addCycles b s) = addCycles b (advance s) := by
  have : leaveMode (addCycles b s) = addCycles b (leaveMode s) := by
    simp only [leaveMode, addCycles]
    congr 1
    omega
  unfold advance
  rw [this, transition_addCycles]

/-- Running the loop, then adding cycles and running it again, is running it on the sum (40_timing_controller.md R107). -/
theorem runTransitions_addCycles (b : Nat) (s : State) :
    runTransitions (addCycles b s) = runTransitions (addCycles b (runTransitions s)) := by
  suffices ∀ n, ∀ s : State, s.acc ≤ n → runTransitions (addCycles b s) = runTransitions (addCycles b (runTransitions s))
    from this s.acc s (Nat.le_refl _)
  intro n
  induction n with
  | zero =>
    intro s hs
    have := threshold_ge_80 s.mode
    rw [runTransitions_of_lt (s := s) (by omega)]
  | succ n ih =>
    intro s hs
    have := threshold_ge_80 s.mode
    by_cases h : threshold s.mode ≤ s.acc
    · rw [runTransitions_of_le (s := s) h, runTransitions_of_le (s := addCycles b s) (Nat.le_trans h (Nat.le_add_right ..)),
        advance_addCycles b h]
      exact ih _ (by rw [advance_acc]; omega)
    · rw [runTransitions_of_lt (s := s) (by omega)]

/-- The position the loop ends at depends on the position alone (10_state.md R34). -/
theorem runTransitions_position {s t : State} (hm : t.mode = s.mode) (hl : t.ly = s.ly) (ha : t.acc = s.acc) :
    (runTransitions t).mode = (runTransitions s).mode ∧ (runTransitions t).ly = (runTransitions s).ly ∧
      (runTransitions t).acc = (runTransitions s).acc := by
  suffices ∀ n, ∀ s t : State, s.acc ≤ n → t.mode = s.mode → t.ly = s.ly → t.acc = s.acc →
      (runTransitions t).mode = (runTransitions s).mode ∧ (runTransitions t).ly = (runTransitions s).ly ∧
        (runTransitions t).acc = (runTransitions s).acc from this s.acc s t (Nat.le_refl _) hm hl ha
  intro n
  induction n with
  | zero =>
    intro s t hs hm hl ha
    have := threshold_ge_80 s.mode
    rw [runTransitions_of_lt (s := s) (by omega), runTransitions_of_lt (s := t) (by rw [hm]; omega)]
    exact ⟨hm, hl, ha⟩
  | succ n ih =>
    intro s t hs hm hl ha
    have := threshold_ge_80 s.mode
    by_cases h : threshold s.mode ≤ s.acc
    · rw [runTransitions_of_le (s := s) h, runTransitions_of_le (s := t) (by rw [hm, ha]; exact h)]
      refine ih _ _ ?_ ?_ ?_ ?_
      · rw [advance_acc]; omega
      · rw [advance_mode, advance_mode, hm, hl]
      · rw [advance_ly, advance_ly, hm, hl]
      · rw [advance_acc, advance_acc, hm, ha]
    · rw [runTransitions_of_lt (s := s) (by omega), runTransitions_of_lt (s := t) (by rw [hm]; omega)]
      exact ⟨hm, hl, ha⟩

/-- `n` lines of V-Blank up to line 153 take 456 cycles each and do nothing else (40_timing_controller.md R106). -/
theorem runTransitions_vblankLines {s : State} (hm : s.mode = .vblank) {n : Nat} (hl : s.ly + n ≤ 153)
    (ha : 456 * n ≤ s.acc) : runTransitions s = runTransitions { s with ly := s.ly + n, acc := s.acc - 456 * n } := by
  induction n generalizing s with
  | zero => rfl
  | succ n ih =>
    have hadv : advance s = { s with ly := s.ly + 1, acc := s.acc - 456 } := by
      simp only [advance, transition, leaveMode, hm, transitionVblank, threshold]
      rw [if_neg (by omega)]
    rw [runTransitions_of_le (by rw [hm]; simp only [threshold]; omega), hadv,
      ih (s := { s with ly := s.ly + 1, acc := s.acc - 456 }) hm (by dsimp only; omega) (by dsimp only; omega)]
    dsimp only
    rw [show s.ly + 1 + n = s.ly + (n + 1) by omega, show s.acc - 456 - 456 * n = s.acc - 456 * (n + 1) by omega]

end Sys2Proof.Machine
end

