-- ==== Sys2Proof/Laws/PerInstr.lean ====
section
/-! SUPPORT. Facts of every operation as syntax, one lemma per constructor. WordKind: the kind field of the word that
stands for it (30_encoding.md R81 to R84), and no word for an internal operation (R87). -/

namespace Sys2Proof.Laws

/-- The kind field of 30_encoding.md R85 that an operation's word carries; none where the word is free or absent. -/
def wordKind : Instr → Option (BitVec 2)
  | .step _ => some 0b00
  | .readStatus | .readScanline | .readCompare | .readUnmapped _ => some 0b01
  | .writeStatus _ | .writeScanline _ | .writeCompare _ | .writeUnmapped _ _ => some 0b10
  | .init => some 0b11
  | .invalid _ | .tOamXfer | .tXferHblank | .tHblankOam | .tHblankVblank | .tVblankLine | .tVblankOam
  | .statModeEntry _ | .coincidenceCheck | .decodeScanline _ | .completeFrame => none

/-- Where an operation has a kind, every word of it carries that kind; an internal operation has no word. -/
def WordKind.Statement (i : Instr) : Prop :=
  (∀ cfg w n k, encode cfg i = some (w, n) → wordKind i = some k → w.kind = k) ∧
    (Machine.isInternal i = true → ∀ cfg, encode cfg i = none)

theorem WordKind.step (n : Int) : WordKind.Statement (.step n) :=
  ⟨fun cfg w n k h hk => (by cases h; cases hk; exact TxWord.kind_make _ _ _), fun h => by cases h⟩

theorem WordKind.readStatus : WordKind.Statement (.readStatus) :=
  ⟨fun cfg w n k h hk => (by cases h; cases hk; exact TxWord.kind_make _ _ _), fun h => by cases h⟩

theorem WordKind.readScanline : WordKind.Statement (.readScanline) :=
  ⟨fun cfg w n k h hk => (by cases h; cases hk; exact TxWord.kind_make _ _ _), fun h => by cases h⟩

theorem WordKind.readCompare : WordKind.Statement (.readCompare) :=
  ⟨fun cfg w n k h hk => (by cases h; cases hk; exact TxWord.kind_make _ _ _), fun h => by cases h⟩

theorem WordKind.readUnmapped (addr : Address) : WordKind.Statement (.readUnmapped addr) :=
  ⟨fun cfg w n k h hk => (by cases h; cases hk; exact TxWord.kind_make _ _ _), fun h => by cases h⟩

theorem WordKind.writeStatus (v : Byte) : WordKind.Statement (.writeStatus v) :=
  ⟨fun cfg w n k h hk => (by cases h; cases hk; exact TxWord.kind_make _ _ _), fun h => by cases h⟩

theorem WordKind.writeScanline (v : Byte) : WordKind.Statement (.writeScanline v) :=
  ⟨fun cfg w n k h hk => (by cases h; cases hk; exact TxWord.kind_make _ _ _), fun h => by cases h⟩

theorem WordKind.writeCompare (v : Byte) : WordKind.Statement (.writeCompare v) :=
  ⟨fun cfg w n k h hk => (by cases h; cases hk; exact TxWord.kind_make _ _ _), fun h => by cases h⟩

theorem WordKind.writeUnmapped (addr : Address) (v : Byte) : WordKind.Statement (.writeUnmapped addr v) :=
  ⟨fun cfg w n k h hk => (by cases h; cases hk; exact TxWord.kind_make _ _ _), fun h => by cases h⟩

theorem WordKind.init : WordKind.Statement (.init) :=
  ⟨fun cfg w n k h hk => (by cases h; cases hk; exact TxWord.kind_make _ _ _), fun h => by cases h⟩

theorem WordKind.invalid (w : TxWord) : WordKind.Statement (.invalid w) :=
  ⟨fun cfg w₁ n k h hk => (by cases hk), fun h => by cases h⟩

theorem WordKind.tOamXfer : WordKind.Statement (.tOamXfer) :=
  ⟨fun cfg w n k h hk => (by cases h), fun _ _ => rfl⟩

theorem WordKind.tXferHblank : WordKind.Statement (.tXferHblank) :=
  ⟨fun cfg w n k h hk => (by cases h), fun _ _ => rfl⟩

theorem WordKind.tHblankOam : WordKind.Statement (.tHblankOam) :=
  ⟨fun cfg w n k h hk => (by cases h), fun _ _ => rfl⟩

theorem WordKind.tHblankVblank : WordKind.Statement (.tHblankVblank) :=
  ⟨fun cfg w n k h hk => (by cases h), fun _ _ => rfl⟩

theorem WordKind.tVblankLine : WordKind.Statement (.tVblankLine) :=
  ⟨fun cfg w n k h hk => (by cases h), fun _ _ => rfl⟩

theorem WordKind.tVblankOam : WordKind.Statement (.tVblankOam) :=
  ⟨fun cfg w n k h hk => (by cases h), fun _ _ => rfl⟩

theorem WordKind.statModeEntry (m : Mode) : WordKind.Statement (.statModeEntry m) :=
  ⟨fun cfg w n k h hk => (by cases h), fun _ _ => rfl⟩

theorem WordKind.coincidenceCheck : WordKind.Statement (.coincidenceCheck) :=
  ⟨fun cfg w n k h hk => (by cases h), fun _ _ => rfl⟩

theorem WordKind.decodeScanline (line : Nat) : WordKind.Statement (.decodeScanline line) :=
  ⟨fun cfg w n k h hk => (by cases h), fun _ _ => rfl⟩

theorem WordKind.completeFrame : WordKind.Statement (.completeFrame) :=
  ⟨fun cfg w n k h hk => (by cases h), fun _ _ => rfl⟩

end Sys2Proof.Laws
end

