-- ==== Sys2Proof/Tests/Slice0.lean ====
section
/-! SUPPORT. The model's own tests. Expected values are those of spec/95_test_vectors.md (the vector is named) or are
worked out from the rule named; none is the model's own answer. After them, a witness for the hypotheses of every
statement that has some. -/

namespace Sys2Proof.Tests

open Sys2Proof Sys2Proof.Machine

/-! ### Helpers -/

/-- A running block at a place of the frame, everything else as after INIT. -/
def place (m : Mode) (ly acc : Nat) : State := { State.reset with mode := m, ly := ly, acc := acc }

/-- A stuck block. -/
def brokenBlock : State := { State.reset with run := .faulted (.unmappedRegister 0xFF42) }

/-- The outcome is a next state of which `p` holds. -/
def nextHas (o : Host.Outcome State Fault Refusal) (p : State → Bool) : Bool :=
  match o with
  | .next t => p t
  | .fault _ => false
  | .refused _ => false

/-- The outcome is this refusal. -/
def refuses (o : Host.Outcome State Fault Refusal) (r : Refusal) : Bool :=
  match o with
  | .next _ => false
  | .fault _ => false
  | .refused r' => r' == r

/-- The outcome is this fault. -/
def faults (o : Host.Outcome State Fault Refusal) (r : Fault) : Bool :=
  match o with
  | .next _ => false
  | .fault r' => r' == r
  | .refused _ => false

/-- mode / ly / acc / coinc, as spec/95_test_vectors.md writes a state. -/
def at4 (m : Mode) (ly acc : Nat) (coinc : Bool) (t : State) : Bool :=
  t.mode == m && t.ly == ly && t.acc == acc && t.coinc == coinc

/-! ### Well-formedness refuses an ill-formed term for each of its checks -/

theorem test_wf_negative_count : WellFormed Config.defaults (.step (-1)) = false := by decide

theorem test_wf_read_of_a_port_address : WellFormed Config.defaults (.readUnmapped 0xFF41) = false := by decide

theorem test_wf_write_of_a_port_address : WellFormed Config.defaults (.writeUnmapped 0xFF45 1) = false := by decide

theorem test_wf_invalid_of_a_valid_word : WellFormed Config.defaults (.invalid 0x3000000) = false := by decide

/-! ### Decoding: the words of 95_test_vectors.md 2.8 (V-E1 to V-E15) and 30_encoding.md R92 -/

theorem test_decode_step : decode Config.defaults 0x0000000 456 = .step 456 := by decide

theorem test_decode_step_reserved :
    decode Config.defaults 0x0000001 0 = .invalid 0x0000001 ∧
    decode Config.defaults 0x0FF4100 0 = .invalid 0x0FF4100 := by decide

theorem test_decode_read_status : decode Config.defaults 0x1FF4100 0 = .readStatus := by decide

theorem test_decode_read_scanline : decode Config.defaults 0x1FF4400 0 = .readScanline := by decide

theorem test_decode_read_compare : decode Config.defaults 0x1FF4500 0 = .readCompare := by decide

theorem test_decode_read_reserved : decode Config.defaults 0x1FF4101 0 = .invalid 0x1FF4101 := by decide

theorem test_decode_read_unmapped : decode Config.defaults 0x1FF4200 0 = .readUnmapped 0xFF42 := by decide

theorem test_decode_write_status : decode Config.defaults 0x2FF4140 0 = .writeStatus 0x40 := by decide

theorem test_decode_write_scanline : decode Config.defaults 0x2FF44AB 0 = .writeScanline 0xAB := by decide

theorem test_decode_write_compare : decode Config.defaults 0x2FF4590 0 = .writeCompare 0x90 := by decide

theorem test_decode_write_unmapped : decode Config.defaults 0x2FF0F01 0 = .writeUnmapped 0xFF0F 1 := by decide

theorem test_decode_init : decode Config.defaults 0x3000000 0 = .init := by decide

theorem test_decode_init_reserved :
    decode Config.defaults 0x3000001 0 = .invalid 0x3000001 ∧
    decode Config.defaults 0x3FF4100 0 = .invalid 0x3FF4100 := by decide

/-- The fields of `WRITE STATUS, 0x40` written out bit by bit from 30_encoding.md R85: kind 10, addr 0xFF41, data 0x40. -/
theorem test_decode_written_out_bit_by_bit :
    decode Config.defaults 0b10_1111111101000001_01000000 0 = .writeStatus 0x40 := by decide

/-- A number with a bit above bit 25 is no transaction word (30_encoding.md R85). -/
theorem test_decode_table_word_too_wide : decodeTableWord 32 0x4000000 = none := by decide

/-! ### Lifecycle (95_test_vectors.md 2.7) -/

/-- V-I4: a second INIT gives the values of 10_state.md R38. -/
theorem test_init_from_running :
    nextHas (exec .init { place .vblank 150 99 with enLyc := true, lyc := 7, coinc := true })
      (fun t => at4 .oam 0 0 false t && t.lyc == 0 && !t.enLyc && t.run == .running) = true := by decide

/-- V-I7. -/
theorem test_init_does_not_clear_a_fault :
    faults (exec .init brokenBlock) (.stuck (.unmappedRegister 0xFF42)) = true := by decide

/-- V-I2, V-I3, V-I9. -/
theorem test_power_on_refuses :
    refuses (exec .readStatus State.powerOn) .notInitialised = true ∧
    refuses (exec (.step 10) State.powerOn) .notInitialised = true ∧
    refuses (exec (.readUnmapped 0xFF42) State.powerOn) .notInitialised = true := by decide

/-- V-E14: refused at the boundary. -/
theorem test_invalid_is_refused :
    refuses (exec (.invalid 0x3000001) State.reset) (.invalidWord 0x3000001) = true := by decide

/-- 20_memory.md R54: IF at CONTROL's address, and IF on the last byte of the tile window. -/
theorem test_overlapping_if_is_refused :
    refuses (exec .readStatus { State.reset with cfg := { Config.defaults with ifAddr := 0xFF40 } })
      .configurationNotAdmitted = true ∧
    refuses (exec .readStatus { State.reset with cfg := { Config.defaults with ifAddr := 0x8FFF } })
      .configurationNotAdmitted = true := by decide

/-! ### Register port (95_test_vectors.md 2.4) -/

/-- V-T0 and V-P1c: 0x02 after INIT, 0x82 with STAT_BIT7 = ReadsOne. -/
theorem test_read_status :
    nextHas (exec .readStatus State.reset) (fun t => t.returned == [0x02]) = true ∧
    nextHas (exec .readStatus { State.reset with cfg := { Config.defaults with statBit7 := .readsOne } })
      (fun t => t.returned == [0x82]) = true := by decide

/-- V-S1: mode 3 with en_hblank and coinc reads 0x0F. -/
theorem test_read_status_in_transfer :
    nextHas (exec .readStatus { place .xfer 0 171 with enHblank := true, coinc := true })
      (fun t => t.returned == [0x0F]) = true := by decide

/-- V-P8: 153 reads as 0x99. -/
theorem test_read_scanline : nextHas (exec .readScanline (place .vblank 153 0)) (fun t => t.returned == [0x99]) = true := by
  decide

/-- V-P6. -/
theorem test_read_compare :
    nextHas (exec .readCompare { State.reset with lyc := 0xFF }) (fun t => t.returned == [0xFF]) = true := by decide

/-- V-P1 and V-P1b: 0xFF written reads 0xFA under Stored and 0x7A under ReadsZero. -/
theorem test_write_status :
    nextHas (exec (.writeStatus 0xFF) State.reset) (fun t => statusValue t == 0xFA) = true ∧
    nextHas (exec (.writeStatus 0xFF) { State.reset with cfg := { Config.defaults with statBit7 := .readsZero } })
      (fun t => statusValue t == 0x7A) = true := by decide

/-- V-P2: bits 2..0 of the write are ignored. -/
theorem test_write_status_read_only_bits :
    nextHas (exec (.writeStatus 0x07) State.reset) (fun t => statusValue t == 0x02) = true := by decide

/-- V-P4: mode and acc stay. -/
theorem test_write_scanline :
    nextHas (exec (.writeScanline 0x99) (place .oam 100 3)) (fun t => at4 .oam 0 3 false t) = true := by decide

/-- V-C8: the write leaves the flag as it was. -/
theorem test_write_compare :
    nextHas (exec (.writeCompare 5) { State.reset with coinc := true }) (fun t => t.lyc == 5 && t.coinc) = true := by decide

/-- V-P9: Faulted(1, 0xFF42), no value returned. -/
theorem test_read_unmapped :
    nextHas (exec (.readUnmapped 0xFF42) State.reset)
      (fun t => t.run == .faulted (.unmappedRegister 0xFF42) && t.returned == []) = true := by decide

/-- V-P10: Faulted(1, 0xFF40), nothing stored. -/
theorem test_write_unmapped :
    nextHas (exec (.writeUnmapped 0xFF40 0x80) State.reset)
      (fun t => t.run == .faulted (.unmappedRegister 0xFF40) && t.bus == []) = true := by decide

/-! ### STEP (95_test_vectors.md 2.1, 2.3) -/

/-- V-T1 and V-T2: one below the OAM threshold, and exactly at it. -/
theorem test_step_at_the_threshold :
    nextHas (exec (.step 79) State.reset) (at4 .oam 0 79 true) = true ∧
    nextHas (exec (.step 80) State.reset) (at4 .xfer 0 0 true) = true := by decide

/-- V-T5: a whole line in one STEP. -/
theorem test_step_line : nextHas (exec (.step 456) State.reset) (at4 .oam 1 0 false) = true := by decide +kernel

/-- 60_exceptions.md R202: rejected before any effect. -/
theorem test_step_negative :
    nextHas (exec (.step (-1)) State.reset)
      (fun t => t.run == .faulted (.outOfRangeCycleCount (-1)) && t.acc == 0) = true := by decide

/-! ### The edges and the requests (95_test_vectors.md 2.2, 2.3) -/

theorem test_oam_xfer : nextHas (exec .tOamXfer (place .oam 7 81)) (at4 .xfer 7 1 false) = true := by decide

theorem test_oam_xfer_too_early : refuses (exec .tOamXfer (place .oam 7 79)) .transitionNotReached = true := by decide

/-- V-S2: H-Blank entry with en_hblank requests STAT; V-T3: 61 bus reads by the decode. -/
theorem test_xfer_hblank :
    nextHas (exec .tXferHblank { place .xfer 0 172 with enHblank := true })
      (fun t => at4 .hblank 0 0 false t && t.bus == [(0xFF0F, 0x02)] && (t.trace.filter isBusRead).length == 61) = true := by
  decide +kernel

/-- V-S5: the OAM-entry quirk. V-S5b: without it no request. -/
theorem test_hblank_oam :
    nextHas (exec .tHblankOam { place .hblank 0 204 with enVblank := true })
      (fun t => at4 .oam 1 0 false t && t.trace == [.irqReq .stat (.modeEntry .oam)]) = true ∧
    nextHas (exec .tHblankOam { place .hblank 0 204 with
        enVblank := true, cfg := { Config.defaults with oamEntryQuirk := false } })
      (fun t => at4 .oam 1 0 false t && t.trace == []) = true := by decide

/-- V-S7: VBlank, then ModeEntry(1), then the CONTROL read of complete_frame; IF = 0x03. -/
theorem test_hblank_vblank :
    nextHas (exec .tHblankVblank { place .hblank 143 204 with enVblank := true })
      (fun t => at4 .vblank 144 0 false t && t.bus == [(0xFF0F, 0x03)] &&
        t.trace == [.irqReq .vblank .vblankEntry, .irqReq .stat (.modeEntry .vblank), .busRd 0xFF40 0]) = true := by
  decide +kernel

theorem test_vblank_line :
    nextHas (exec .tVblankLine { place .vblank 152 456 with enVblank := true })
      (fun t => at4 .vblank 153 0 false t && t.trace == []) = true := by decide

/-- V-S8: OAM entry from V-Blank. -/
theorem test_vblank_oam :
    nextHas (exec .tVblankOam { place .vblank 153 456 with enOam := true })
      (fun t => at4 .oam 0 0 false t && t.trace == [.irqReq .stat (.modeEntry .oam)]) = true := by decide

/-- V-S4: en_vblank does not fire on H-Blank entry. -/
theorem test_stat_mode_entry :
    nextHas (exec (.statModeEntry .hblank) { State.reset with enVblank := true }) (fun t => t.trace == []) = true ∧
    nextHas (exec (.statModeEntry .vblank) { State.reset with enVblank := true })
      (fun t => t.bus == [(0xFF0F, 0x02)]) = true := by decide

/-- V-C4: match at line 0. V-C7: 200 never matches, and the flag is cleared. -/
theorem test_coincidence_check :
    nextHas (exec .coincidenceCheck { State.reset with enLyc := true })
      (fun t => t.coinc && t.bus == [(0xFF0F, 0x02)] && t.trace == [.irqReq .stat .coincidence]) = true ∧
    nextHas (exec .coincidenceCheck { State.reset with lyc := 200, coinc := true })
      (fun t => !t.coinc && t.trace == []) = true := by decide

/-! ### Renderer and frame (95_test_vectors.md 2.5, 2.6) -/

/-- V-R11: planes 0xA0 and 0x05 give D L D L L D L D. -/
theorem test_decode_scanline_planes :
    nextHas (exec (.decodeScanline 0) { State.reset with bus := [(0x8000, 0xA0), (0x8001, 0x05)] })
      (fun t => (t.buf[0].toList.take 8) == [.dark, .light, .dark, .light, .light, .dark, .light, .dark]) = true := by
  decide +kernel

/-- V-R7: SCY 200, line 143, map byte 0xFF at 0x9940: the reads start 0xFF42, 0x9940, 0x8FFE, 0x8FFF. -/
theorem test_decode_scanline_reads :
    nextHas (exec (.decodeScanline 143) { State.reset with bus := [(0x9940, 0xFF), (0xFF42, 200)] })
      (fun t => t.trace.take 4 ==
        [.busRd 0xFF42 200, .busRd 0x9940 0xFF, .busRd 0x8FFE 0, .busRd 0x8FFF 0]) = true := by decide +kernel

/-- V-F1b and V-F2: only bit 7 of CONTROL is tested. -/
theorem test_complete_frame :
    nextHas (exec .completeFrame { State.reset with bus := [(0xFF40, 0x91)] })
      (fun t => t.trace.length == 2 && t.trace.head? == some (.busRd 0xFF40 0x91) && t.trace.any isFrame) = true ∧
    nextHas (exec .completeFrame { State.reset with bus := [(0xFF40, 0x7F)] })
      (fun t => t.trace == [.busRd 0xFF40 0x7F]) = true := by decide

/-! ### The step of the machine -/

/-- The host's view of rows of the table, on the state after reset. -/
theorem test_step_runs_the_placed_word :
    nextHas (step (State.reset.withFetchWord 32 0x1FF4100)) (fun t => t.returned == [0x02] && t.hostQueue == []) = true ∧
    nextHas (step (State.reset.withFetchWord 32 0x0000000)) (at4 .oam 0 0 true) = true ∧
    refuses (step (State.reset.withFetchWord 32 0x3000001)) (.invalidWord 0x3000001) = true := by decide

/-- 30_encoding.md R92: the expansions, at the default addresses. -/
theorem test_pseudo_transactions :
    nextHas (perform (expand Config.defaults .resetLy) (place .vblank 146 9)) (at4 .vblank 0 9 false) = true ∧
    expand Config.defaults .stepLine = .issue 0 456 ∧ expand Config.defaults .stepFrame = .issue 0 70224 := by decide

/-- A fill that crosses the top of the bus wraps to address 0 (20_memory.md R50: addresses are 16 bits; log 15). -/
theorem test_fill_wraps : Memory.fill [] 0xFFFF 2 0xAA = [(0, 0xAA), (0xFFFF, 0xAA)] := by decide

/-! ### Witnesses: a concrete state and operands meeting all the hypotheses of each statement -/

/-- Parameters other than the defaults, admitted. -/
def otherConfig : Config :=
  { Config.defaults with statusAddr := 0x1000, scanlineAddr := 0xFFFF, compareAddr := 0x0000, statBit7 := .readsOne,
                         pixelOrder := .lsbFirst, oamEntryQuirk := false }

theorem witness_ready : Ready State.reset ∧ Ready { State.reset with cfg := otherConfig } := by decide

/-- DecodeOfEncodeIsTheOperation, at the ends of the operands. -/
theorem witness_DecodeOfEncodeIsTheOperation :
    portsDistinct otherConfig = true ∧
    WellFormed otherConfig (.step 0) = true ∧ (encode otherConfig (.step 0)).isSome = true ∧
    WellFormed otherConfig (.writeUnmapped 0xFF41 0xFF) = true ∧
    (encode otherConfig (.writeUnmapped 0xFF41 0xFF)).isSome = true ∧
    WellFormed otherConfig (.invalid 0x0000001) = true ∧ WellFormed otherConfig .init = true := by decide

/-- EncodeOfDecodeIsTheWord: both sides of its equivalence. -/
theorem witness_EncodeOfDecodeIsTheWord :
    encode Config.defaults (decode Config.defaults 0 (-1)) = some (0, -1) ∧
    WellFormed Config.defaults (decode Config.defaults 0 (-1)) = false ∧
    WellFormed Config.defaults (decode Config.defaults 0x3FFFFFF (-1)) = true := by decide

/-- InvalidExactlyWhenReservedNonZero: a word on each side. -/
theorem witness_InvalidExactlyWhenReservedNonZero :
    reservedNonZero 0x1FF4101 = true ∧ reservedNonZero 0x2FF41FF = false := by decide

/-- PortDecodesTheFullAddress: each selection, at the ends of the address range. -/
theorem witness_PortDecodesTheFullAddress :
    portsDistinct otherConfig = true ∧ decodeRead otherConfig 0x0000 = .readCompare ∧
    decodeRead otherConfig 0xFFFF = .readScanline ∧ decodeRead otherConfig 0x1000 = .readStatus ∧
    decodeRead otherConfig 0x0001 = .readUnmapped 0x0001 ∧
    decodeWrite otherConfig 0xFFFE 1 = .writeUnmapped 0xFFFE 1 := by decide

/-- StepExecutesTheDecodedTransaction: both clauses. -/
theorem witness_StepExecutesTheDecodedTransaction :
    { State.reset with hostQueue := [.issue 0x1FF4400 0, .clearIf] }.hostQueue = .issue 0x1FF4400 0 :: [.clearIf] ∧
    State.reset.cfg = Config.defaults ∧ decodeTableWord 32 0x2FF4590 = some (.writeCompare 0x90) := by decide

/-- HostActionsWriteOnlyTheirBytes: each move at the head of the queue of a canonical bus; a fill over the top. -/
theorem witness_HostActionsWriteOnlyTheirBytes :
    Memory.wf [(0xFF40, 0x80)] ∧
    { State.reset with hostQueue := [.busWrite 0xFFFF 0] }.hostQueue = .busWrite 0xFFFF 0 :: [] ∧
    { State.reset with hostQueue := [.busFill 0xFFFF 2 0xAA] }.hostQueue = .busFill 0xFFFF 2 0xAA :: [] ∧
    { State.reset with hostQueue := [.clearIf] }.hostQueue = .clearIf :: [] := by decide

/-- EmptyQueueWaitsUnlessFaulted: both clauses. -/
theorem witness_EmptyQueueWaitsUnlessFaulted :
    State.reset.hostQueue = [] ∧ (∀ e, State.reset.run ≠ .faulted e) ∧ brokenBlock.hostQueue = [] ∧
    brokenBlock.run = .faulted (.unmappedRegister 0xFF42) := by
  refine ⟨by decide, fun e h => ?_, by decide, by decide⟩
  cases h

/-- InitSetsEveryBlockField: from Uninit and from Running. -/
theorem witness_InitSetsEveryBlockField :
    configAdmitted State.powerOn.cfg = true ∧ State.powerOn.run = .uninit ∧
    configAdmitted (place .vblank 150 99).cfg = true ∧ (place .vblank 150 99).run = .running := by decide

/-- OnlyInitRunsBeforeInit. -/
theorem witness_OnlyInitRunsBeforeInit :
    configAdmitted State.powerOn.cfg = true ∧ State.powerOn.run = .uninit ∧ Instr.step 10 ≠ .init ∧
    isInvalid (.step 10) = false := by decide

/-- FaultedBlockIsStuck. -/
theorem witness_FaultedBlockIsStuck :
    configAdmitted brokenBlock.cfg = true ∧ brokenBlock.run = .faulted (.unmappedRegister 0xFF42) ∧
    isInvalid .init = false := by decide

/-- InvalidWordIsRefusedInEveryState: each kind that has a reserved field. -/
theorem witness_InvalidWordIsRefusedInEveryState :
    reservedNonZero 0x0000001 = true ∧ reservedNonZero 0x1FF4101 = true ∧ reservedNonZero 0x3FF4100 = true := by decide

/-- InadmissibleConfigurationIsRefused: one parameter set for each alternative, the windows at both their ends. -/
theorem witness_InadmissibleConfigurationIsRefused :
    isInvalid .init = false ∧
    (0x9800 : Address) = Config.defaults.mapBase + BitVec.ofNat 16 0 ∧
    (0x9BFF : Address) = Config.defaults.mapBase + BitVec.ofNat 16 1023 ∧
    (0x8000 : Address) = Config.defaults.tileBase + BitVec.ofNat 16 0 ∧
    (0x8FFF : Address) = Config.defaults.tileBase + BitVec.ofNat 16 4095 ∧
    { Config.defaults with ifAddr := 0xFF42 }.ifAddr = Config.defaults.scrollYAddr ∧
    { Config.defaults with ifAddr := 0xFF40 }.ifAddr = Config.defaults.controlAddr ∧
    { Config.defaults with statusAddr := 0xFF44 }.statusAddr = Config.defaults.scanlineAddr ∧
    { Config.defaults with statusAddr := 0xFF45 }.statusAddr = Config.defaults.compareAddr ∧
    { Config.defaults with scanlineAddr := 0xFF45 }.scanlineAddr = Config.defaults.compareAddr ∧
    { Config.defaults with ifVblankBit := 1 }.ifVblankBit = Config.defaults.ifStatBit ∧
    resolvePixel ⟨.dark, .dark, .dark, .dark⟩ false false ≠ shade (false || false) := by decide

/-- UnmappedAccessFaultsForGood: an address next to a port register, and the two ends of the range. -/
theorem witness_UnmappedAccessFaultsForGood :
    Ready State.reset ∧ onPort State.reset.cfg 0xFF42 = false ∧ onPort State.reset.cfg 0 = false ∧
    onPort State.reset.cfg 0xFFFF = false ∧ isInvalid .init = false := by decide

/-- NegativeCountIsRejected. -/
theorem witness_NegativeCountIsRejected : Ready State.reset ∧ (-1 : Int) < 0 := by decide

/-- ErrorsArePreciseAndOnlyTheseOperationsRaise: an operation of each of the three alternatives. -/
theorem witness_ErrorsArePreciseAndOnlyTheseOperationsRaise :
    nextHas (exec (.readUnmapped 0) State.reset) (fun t => t.run == .faulted (.unmappedRegister 0)) = true ∧
    nextHas (exec (.writeUnmapped 0xFFFF 1) State.reset) (fun t => t.run == .faulted (.unmappedRegister 0xFFFF)) = true ∧
    nextHas (exec (.step (-7)) State.reset) (fun t => t.run == .faulted (.outOfRangeCycleCount (-7))) = true := by decide

/-- ReadScanlineReturnsTheLine, at both ends of the line's range. -/
theorem witness_ReadScanlineReturnsTheLine :
    Ready (place .oam 0 0) ∧ (place .oam 0 0).ly ≤ 153 ∧ Ready (place .vblank 153 455) ∧ (place .vblank 153 455).ly ≤ 153 := by
  decide

/-- ReadStatusReturnsEveryField: each reading of bit 7. -/
theorem witness_ReadStatusReturnsEveryField :
    Ready State.reset ∧ State.reset.cfg.statBit7 = .stored ∧
    Ready { State.reset with cfg := otherConfig } ∧ otherConfig.statBit7 = .readsOne ∧
    Ready { State.reset with cfg := { otherConfig with statBit7 := .readsZero } } := by decide

/-- CompareReadsBackAsWritten: any ready state. -/
theorem witness_CompareReadsBackAsWritten : Ready (place .vblank 153 455) := by decide

theorem witness_WriteScanlineResetsTheLine : Ready (place .vblank 146 0) := by decide

/-- WriteStatusStoresTheEnables: both clauses on bit 7. -/
theorem witness_WriteStatusStoresTheEnables :
    Ready State.reset ∧ State.reset.cfg.statBit7 = .stored ∧
    Ready { State.reset with cfg := otherConfig } ∧ otherConfig.statBit7 ≠ .stored := by decide

/-- RegisterAccessesAreIdempotent: two executions in a row of a write and of a read. -/
theorem witness_RegisterAccessesAreIdempotent :
    (∃ t u, exec (.writeCompare 0xFF) State.reset = .next t ∧ exec (.writeCompare 0xFF) t = .next u) ∧
    ∃ t u, exec .readStatus State.reset = .next t ∧ exec .readStatus t = .next u :=
  ⟨⟨_, _, rfl, rfl⟩, ⟨_, _, rfl, rfl⟩⟩

/-- RegisterPortRunsNoTiming: a write, and INIT. -/
theorem witness_RegisterPortRunsNoTiming :
    isInternal (.writeStatus 0xFF) = false ∧ (∀ n, Instr.writeStatus 0xFF ≠ .step n) ∧
    (∃ t, exec (.writeStatus 0xFF) State.reset = .next t) ∧ Instr.writeStatus 0xFF ≠ .init ∧
    isInternal .init = false ∧ ∃ t, exec .init State.reset = .next t :=
  ⟨rfl, (by intro n h; cases h), ⟨_, rfl⟩, by decide, rfl, ⟨_, rfl⟩⟩

theorem witness_OamEdgeEntersPixelTransfer :
    Ready (place .oam 0 80) ∧ (place .oam 0 80).mode = .oam ∧ 80 ≤ (place .oam 0 80).acc := by decide

theorem witness_XferEdgeEntersHblankThenDecodes :
    Ready (place .xfer 143 172) ∧ (place .xfer 143 172).mode = .xfer ∧ 172 ≤ (place .xfer 143 172).acc := by decide

/-- HblankEdgeStartsTheNextLine, on the last line it covers. -/
theorem witness_HblankEdgeStartsTheNextLine :
    Ready (place .hblank 142 204) ∧ (place .hblank 142 204).mode = .hblank ∧ 204 ≤ (place .hblank 142 204).acc ∧
    (place .hblank 142 204).ly ≠ 143 := by decide

theorem witness_HblankEdgeEntersVblank :
    Ready (place .hblank 143 204) ∧ (place .hblank 143 204).mode = .hblank ∧ 204 ≤ (place .hblank 143 204).acc ∧
    (place .hblank 143 204).ly = 143 := by decide

/-- VblankEdgeCountsThenWraps: both clauses, on the two lines where they meet. -/
theorem witness_VblankEdgeCountsThenWraps :
    Ready (place .vblank 152 456) ∧ 456 ≤ (place .vblank 152 456).acc ∧ (place .vblank 152 456).ly < 153 ∧
    Ready (place .vblank 153 456) ∧ 456 ≤ (place .vblank 153 456).acc ∧ 153 ≤ (place .vblank 153 456).ly := by decide

/-- ExactlyOneEdgeIsDue: both clauses, at the threshold and one below it. -/
theorem witness_ExactlyOneEdgeIsDue :
    Ready (place .hblank 5 204) ∧ threshold (place .hblank 5 204).mode ≤ (place .hblank 5 204).acc ∧
    Ready (place .hblank 5 203) ∧ (place .hblank 5 203).acc < threshold (place .hblank 5 203).mode := by decide

/-- RequestSetsOneIfBitAndIsTraced: the ends of the bit range, and another address. -/
theorem witness_RequestSetsOneIfBitAndIsTraced :
    (0 : Nat) < 8 ∧ (7 : Nat) < 8 ∧ (0xFF40 : Address) ≠ State.reset.cfg.ifAddr := by decide

/-- ModeEntryRequestsByItsEnable: enabled by the quirk, and not enabled without it. -/
theorem witness_ModeEntryRequestsByItsEnable :
    Ready { State.reset with enVblank := true } ∧ State.reset.cfg.oamEntryQuirk = true ∧
    Ready { State.reset with enVblank := true, cfg := otherConfig } ∧ otherConfig.oamEntryQuirk = false := by decide

/-- CoincidenceCheckComparesAndRequests: each clause. -/
theorem witness_CoincidenceCheckComparesAndRequests :
    Ready { State.reset with enLyc := true } ∧ State.reset.ly % 256 = State.reset.lyc.toNat ∧
    State.reset.enLyc = false ∧ (place .vblank 153 0).ly % 256 ≠ (place .vblank 153 0).lyc.toNat := by decide

/-- CompareAboveLastLineNeverCoincides, at the lowest value and on the last lines of both kinds. -/
theorem witness_CompareAboveLastLineNeverCoincides :
    Ready { place .vblank 153 0 with lyc := 154 } ∧ 154 ≤ (154 : Byte).toNat ∧ (place .vblank 153 0).ly ≤ 153 ∧
    (place .vblank 153 0).mode = .vblank ∧ Ready { place .hblank 143 0 with lyc := 255 } ∧
    (place .hblank 143 0).ly ≤ 143 := by decide

theorem witness_StepZeroIsTheCoincidenceCheck :
    Ready (place .vblank 153 455) ∧ (place .vblank 153 455).acc < threshold (place .vblank 153 455).mode := by decide

/-- StepIsEdgesThenOneCheck, AnyGroupingOfCyclesAgrees: any ready state. -/
theorem witness_StepIsEdgesThenOneCheck : Ready (place .hblank 143 203) := by decide

/-- AnyGroupingOfCyclesAgrees: its address and bit premises. -/
theorem witness_AnyGroupingOfCyclesAgrees :
    Ready (place .hblank 143 203) ∧ (0xFF40 : Address) ≠ (place .hblank 143 203).cfg.ifAddr ∧
    (7 : Nat) ≠ (place .hblank 143 203).cfg.ifStatBit.val := by decide

/-- VisibleLineTakes456Cycles: the last visible line, and a count at each end of each clause. -/
theorem witness_VisibleLineTakes456Cycles :
    Ready (place .oam 143 0) ∧ LineStart (place .oam 143 0) ∧ (place .oam 143 0).ly ≤ 143 ∧
    (79 < 80 ∧ 79 ≤ 456) ∧ (80 ≤ 80 ∧ 80 < 252) ∧ (80 ≤ 251 ∧ 251 < 252) ∧ (252 ≤ 252 ∧ 252 < 456) ∧
    (252 ≤ 455 ∧ 455 < 456) ∧ 456 ≤ 456 := by decide

/-- FrameTakes70224Cycles: the state after INIT is the start of line 0. -/
theorem witness_FrameTakes70224Cycles : Ready State.reset ∧ LineStart State.reset ∧ State.reset.ly = 0 := by decide

/-- EmittedFrameShowsEveryLine: with CONTROL = 0x80. -/
theorem witness_EmittedFrameShowsEveryLine :
    Ready { State.reset with bus := [(0xFF40, 0x80)] } ∧ LineStart { State.reset with bus := [(0xFF40, 0x80)] } ∧
    { State.reset with bus := [(0xFF40, 0x80)] }.ly = 0 ∧
    (({ State.reset with bus := [(0xFF40, 0x80)] }.bus.read 0xFF40).getLsbD 7) = true := by decide

/-- DisplayEnableGatesOnlyTheFrame: the reset state's bus against one with the display enabled. -/
theorem witness_DisplayEnableGatesOnlyTheFrame :
    Ready State.reset ∧
    (∀ a, a ≠ State.reset.cfg.controlAddr → Memory.read [(0xFF40, 0x80)] a = State.reset.bus.read a) ∧
    State.reset.cfg.controlAddr ≠ State.reset.cfg.scrollYAddr ∧
    1024 ≤ (State.reset.cfg.controlAddr - State.reset.cfg.mapBase).toNat ∧
    4096 ≤ (State.reset.cfg.controlAddr - State.reset.cfg.tileBase).toNat ∧
    (State.reset.bus.read State.reset.cfg.controlAddr).getLsbD 7 = false := by
  refine ⟨by decide, fun a ha => ?_, by decide, by decide, by decide, by decide⟩
  have h : ¬ (65344 : Nat) = a.toNat := fun e => ha (BitVec.eq_of_toNat_eq e.symm)
  show Memory.get [(0xFF40, 0x80)] a.toNat = Memory.get [] a.toNat
  simp [Memory.get, h]

/-- TimingDependsOnNothingElse: two states that share no register, bus byte or parameter beside the position. -/
theorem witness_TimingDependsOnNothingElse :
    Ready (place .xfer 9 100) ∧
    Ready { place .xfer 9 100 with enLyc := true, bus := [(0xFF42, 5)], cfg := otherConfig } ∧
    (place .xfer 9 100).lyc = State.reset.lyc := by decide

/-- ShortStepSkipsNoLine: the last cycle of the last line, and the longest count. -/
theorem witness_ShortStepSkipsNoLine :
    Ready (place .vblank 153 455) ∧ TimingInv (place .vblank 153 455) ∧ 456 ≤ 456 := by decide

theorem witness_ScanlineWriteLengthensVblank :
    Ready (place .vblank 146 0) ∧ (place .vblank 146 0).mode = .vblank ∧ (place .vblank 146 0).acc = 0 := by decide

/-- DecodeRendersTheBackground, DecodeOverwritesExactlyOneRow, DecodeReadsInOrder: the last visible line, the last slot
and column. -/
theorem witness_DecodeRendersTheBackground : Ready State.reset ∧ 143 < 144 ∧ 159 < 160 := by decide

theorem witness_DecodeOverwritesExactlyOneRow :
    Ready State.reset ∧ 143 < 144 ∧ 19 < 20 ∧ 7 < 8 ∧ (143 : Nat) ≠ 0 ∧ (142 : Nat) ≠ 143 := by decide

theorem witness_DecodeReadsInOrder : Ready State.reset ∧ 0 < 144 ∧ 143 < 144 ∧ 19 < 20 := by decide

/-- LineZeroClearsTheBuffer: both clauses. -/
theorem witness_LineZeroClearsTheBuffer : Ready State.reset ∧ 1 ≤ 1 ∧ 143 < 144 ∧ (1 : Nat) ≠ 0 ∧ (0 : Nat) ≠ 1 := by decide

theorem witness_DecodeOfABlankingLineDoesNothing : Ready State.reset ∧ 144 ≤ 144 := by decide

/-- CompleteFrameEmitsWhenEnabled: both clauses. -/
theorem witness_CompleteFrameEmitsWhenEnabled :
    Ready { State.reset with bus := [(0xFF40, 0x80)] } ∧ Memory.read [(0xFF40, 0x80)] 0xFF40 = 0x80 ∧
    (0x80 : Byte).getLsbD 7 = true ∧ State.reset.bus.read State.reset.cfg.controlAddr = 0 ∧
    (0 : Byte).getLsbD 7 = false := by decide

/-- EmittedFramesAreImmutable: an enabled display, and an operation that goes on. -/
theorem witness_EmittedFramesAreImmutable :
    Ready { State.reset with bus := [(0xFF40, 0x80)] } ∧ (Memory.read [(0xFF40, 0x80)] 0xFF40).getLsbD 7 = true ∧
    ∃ t, exec .init { State.reset with trace := [.frameReady blankBuffer] } = .next t :=
  ⟨by decide, by decide, ⟨_, rfl⟩⟩

theorem witness_FramePayloadIsRowMajor : 0 < 144 ∧ 143 < 144 ∧ 0 < 160 ∧ 159 < 160 := by decide

/-- StepKeepsTheTimingInvariants, StepKeepsTheBusCanonical: a state at the last cycle of a frame with a STEP to come. -/
theorem witness_StepKeepsTheTimingInvariants :
    TimingInv { place .vblank 153 455 with hostQueue := [.issue 0 1] } ∧
    ∃ t, step { place .vblank 153 455 with hostQueue := [.issue 0 1] } = .next t :=
  ⟨by decide, ⟨_, rfl⟩⟩

theorem witness_StepKeepsTheBusCanonical :
    Memory.wf [(0xFF40, 0x80)] ∧
    ∃ t, step { State.reset with bus := [(0xFF40, 0x80)], hostQueue := [.busWrite 0xFF40 0] } = .next t :=
  ⟨by decide, ⟨_, rfl⟩⟩

/-- OnlyRequestBitsOfIfChange: a coincidence request, and an address and a bit of each premise. -/
theorem witness_OnlyRequestBitsOfIfChange :
    (∃ t, exec .coincidenceCheck { State.reset with enLyc := true, bus := [(0xFF0F, 0x80)] } = .next t) ∧
    (0xFF40 : Address) ≠ State.reset.cfg.ifAddr ∧ (Memory.read [(0xFF0F, 0x80)] 0xFF0F).getLsbD 7 = true ∧
    (7 : Nat) ≠ State.reset.cfg.ifVblankBit.val ∧ (7 : Nat) ≠ State.reset.cfg.ifStatBit.val :=
  ⟨⟨_, rfl⟩, by decide, by decide, by decide, by decide⟩

/-- EachFieldHasOnlyItsWriters: an operation that changes the mode, and one that changes the compare target. -/
theorem witness_EachFieldHasOnlyItsWriters :
    nextHas (exec .tOamXfer (place .oam 0 80)) (fun t => t.mode != .oam) = true ∧
    nextHas (exec (.writeCompare 5) State.reset) (fun t => t.lyc != State.reset.lyc) = true := by decide

end Sys2Proof.Tests
end

section
/-! Interrupt requests (20_memory.md R55): the bit of a line, what one bit ORed into a byte is bit by bit, and the whole
effect of a request. -/

namespace Sys2Proof.Machine

/-- The two lines' bits as one choice, the form in which the statements write them. -/
theorem irqBit_eq_ite (cfg : Config) (line : IrqLine) :
    irqBit cfg line = if line = .vblank then cfg.ifVblankBit else cfg.ifStatBit := by
  cases line
  case vblank => rfl
  case stat => rfl

theorem getLsbD_or_oneBit (v : Byte) (bit : Fin 8) (j : Nat) :
    (v ||| (1#8 <<< bit.val)).getLsbD j = (v.getLsbD j || decide (j = bit.val)) := by
  have oneBit : (1#8 <<< bit.val).getLsbD j = decide (j = bit.val) := by
    rw [← BitVec.twoPow_eq, BitVec.getLsbD_twoPow]
    simp [bit.isLt, eq_comm]
  rw [BitVec.getLsbD_or, oneBit]

/-- A request's effect on IF, bit by bit: the line's bit is set and the others are kept. -/
theorem request_ifAddr_getLsbD (line : IrqLine) (cause : Cause) (s : State) (j : Nat) :
    ((request line cause s).bus.read s.cfg.ifAddr).getLsbD j =
      ((s.bus.read s.cfg.ifAddr).getLsbD j || decide (j = (irqBit s.cfg line).val)) := by
  rw [request_bus, ifSet_read_ifAddr, getLsbD_or_oneBit]

/-- A request touches no byte but IF. -/
theorem request_read_other (line : IrqLine) (cause : Cause) (s : State) {a : Address} (h : a ≠ s.cfg.ifAddr) :
    (request line cause s).bus.read a = s.bus.read a := by
  rw [request_bus, ifSet_read_other _ _ h]

/-- Settles O30: the byte read at IF is the old one with the line's bit ORed in, every other read passes the write by,
and the bus and the trace are the only fields a request writes. -/
theorem requestSetsOneIfBitAndIsTraced : Obligations.RequestSetsOneIfBitAndIsTraced := by
  intro s line cause
  refine ⟨fun j _ => ?ifBits, fun a ha => ?otherBytes, ?traced, ?frame⟩
  case ifBits => rw [← irqBit_eq_ite, request_ifAddr_getLsbD line cause s j]
  case otherBytes => exact request_read_other line cause s ha
  case traced => exact request_trace line cause s
  case frame => rfl

end Sys2Proof.Machine
end

section
/-! Two runs side by side (40_timing_controller.md R107, R119): what a comparison of two states leaves out, and that
STEP keeps their agreement on everything else. -/

namespace Sys2Proof.Machine

/-- What a comparison of two states leaves out: one bus byte, of which only `rel` is asked, and the events that `keep`
drops. -/
structure View where
  addr : Address
  rel  : Byte → Byte → Prop
  keep : Event → Bool

/-- The fields in which compared states may differ, replaced. -/
def State.withHidden (s : State) (c : Bool) (b : Memory) (tr : List Event) : State :=
  { s with coinc := c, bus := b, trace := tr }

/-- The states agree on all that the view compares. The coincidence flag is left out: STEP sets it anew. -/
structure View.Agree (V : View) (s t : State) : Prop where
  frame  : t = s.withHidden t.coinc t.bus t.trace
  bytes  : ∀ x, x ≠ V.addr → t.bus.read x = s.bus.read x
  byte   : V.rel (s.bus.read V.addr) (t.bus.read V.addr)
  events : t.trace.filter V.keep = s.trace.filter V.keep

/-- Nothing the view compares is a function of the byte it leaves out: no decode reads it, an IF request keeps `rel`,
and if it is CONTROL then its reads and the frames it gates are dropped. -/
structure View.Sound (V : View) (cfg : Config) : Prop where
  unread  : Unread cfg V.addr
  or_rel  : ∀ v w m, V.rel v w → V.rel (v ||| m) (w ||| m)
  control : V.addr = cfg.controlAddr → ∀ v f, V.keep (.busRd cfg.controlAddr v) = false ∧ V.keep (.frameReady f) = false

/-- Two runs of the loop in step with each other: what every pair of edges keeps, the pair of loops keeps. -/
theorem runTransitions_simulation {R : State → State → Prop}
    (hpos : ∀ s t, R s t → t.mode = s.mode ∧ t.acc = s.acc) (hstep : ∀ s t, R s t → R (advance s) (advance t))
    {s t : State} (h : R s t) : R (runTransitions s) (runTransitions t) := by
  have loop : ∀ fuel s t, R s t → R (transitionLoop fuel s) (transitionLoop fuel t) := by
    intro fuel
    induction fuel with
    | zero => exact fun _ _ h => h
    | succ fuel ih =>
      intro s t h
      obtain ⟨hm, ha⟩ := hpos s t h
      rw [transitionLoop, transitionLoop, hm, ha]
      split
      · exact ih _ _ (hstep s t h)
      · exact h
  unfold runTransitions
  rw [(hpos s t h).2]
  exact loop s.acc s t h

/-- The byte read after a request, at every address. -/
theorem request_read (line : IrqLine) (cause : Cause) (s : State) (x : Address) :
    (request line cause s).bus.read x =
      if x = s.cfg.ifAddr then s.bus.read x ||| (1#8 <<< (irqBit s.cfg line).val) else s.bus.read x := by
  split
  next h => rw [h, request_bus, ifSet_read_ifAddr]
  next h => exact request_read_other line cause s h

/-- The check sets the flag to the test and requests STAT if the test holds and is enabled. -/
theorem coincidenceCheck_eq (s : State) :
    coincidenceCheck s =
      if coincides s && s.enLyc then request .stat .coincidence { s with coinc := coincides s }
      else { s with coinc := coincides s } := by
  unfold coincidenceCheck
  cases hc : coincides s
  case false => rfl
  case true => simp

namespace View.Agree

variable {V : View} {s t : State}

theorem mode_eq (h : V.Agree s t) : t.mode = s.mode := (congrArg State.mode h.frame :)
theorem ly_eq (h : V.Agree s t) : t.ly = s.ly := (congrArg State.ly h.frame :)
theorem acc_eq (h : V.Agree s t) : t.acc = s.acc := (congrArg State.acc h.frame :)
theorem buf_eq (h : V.Agree s t) : t.buf = s.buf := (congrArg State.buf h.frame :)
theorem cfg_eq (h : V.Agree s t) : t.cfg = s.cfg := (congrArg State.cfg h.frame :)
theorem enLyc_eq (h : V.Agree s t) : t.enLyc = s.enLyc := (congrArg State.enLyc h.frame :)

theorem modeEntryMask_eq (h : V.Agree s t) (m : Mode) : modeEntryMask m t = modeEntryMask m s :=
  (congrArg (modeEntryMask m) h.frame :)

theorem coincides_eq (h : V.Agree s t) : coincides t = coincides s := (congrArg coincides h.frame :)

/-- An update that neither reads nor writes what may differ. -/
theorem map (h : V.Agree s t) (f : State → State)
    (hf : ∀ (u : State) c b tr, f (u.withHidden c b tr) = (f u).withHidden c b tr) : V.Agree (f s) (f t) := by
  have keeps : ∀ u : State, f u = (f u).withHidden u.coinc u.bus u.trace := fun u => hf u u.coinc u.bus u.trace
  have busKept : ∀ u, (f u).bus = u.bus := fun u => (congrArg State.bus (keeps u) :)
  have traceKept : ∀ u, (f u).trace = u.trace := fun u => (congrArg State.trace (keeps u) :)
  have coincKept : ∀ u, (f u).coinc = u.coinc := fun u => (congrArg State.coinc (keeps u) :)
  refine ⟨?frame, ?bytes, ?byte, ?events⟩
  case frame =>
    rw [busKept, traceKept, coincKept, ← hf]
    exact congrArg f h.frame
  case bytes => simpa only [busKept] using h.bytes
  case byte => simpa only [busKept] using h.byte
  case events => simpa only [traceKept] using h.events

theorem setCoinc (h : V.Agree s t) (c d : Bool) : V.Agree { s with coinc := c } { t with coinc := d } :=
  ⟨congrArg (fun u : State => { u with coinc := d }) h.frame, h.bytes, h.byte, h.events⟩

theorem emit (h : V.Agree s t) {es es' : List Event} (he : es'.filter V.keep = es.filter V.keep) :
    V.Agree (emit es s) (emit es' t) := by
  refine ⟨congrArg (Machine.emit es') h.frame, h.bytes, h.byte, ?_⟩
  rw [emit_trace, emit_trace, List.filter_append, List.filter_append, h.events, he]

/-- IF is compared, and then the same bit is set in the same byte, or it is the byte left out, and `rel` survives. -/
theorem request (h : V.Agree s t) (hV : V.Sound s.cfg) (line : IrqLine) (cause : Cause) :
    V.Agree (request line cause s) (request line cause t) := by
  refine ⟨?frame, fun x hx => ?bytes, ?byte, (h.emit (es := [.irqReq line cause]) rfl).events⟩
  case frame => rw [h.frame]; rfl
  case bytes => rw [request_read, request_read, h.cfg_eq, h.bytes x hx]
  case byte =>
    rw [request_read, request_read, h.cfg_eq]
    split
    · exact hV.or_rel _ _ _ h.byte
    · exact h.byte

theorem statModeEntry (h : V.Agree s t) (hV : V.Sound s.cfg) (m : Mode) :
    V.Agree (statModeEntry m s) (statModeEntry m t) := by
  unfold Machine.statModeEntry
  rw [h.modeEntryMask_eq]
  split
  · exact h.request hV _ _
  · exact h

theorem enter (h : V.Agree s t) (hV : V.Sound s.cfg) (m : Mode) : V.Agree (enter m s) (enter m t) :=
  (h.map (fun u => { u with mode := m }) fun _ _ _ _ => rfl).statModeEntry hV m

theorem coincidenceCheck (h : V.Agree s t) (hV : V.Sound s.cfg) :
    V.Agree (coincidenceCheck s) (coincidenceCheck t) := by
  have hflag := h.setCoinc (coincides s) (coincides t)
  have hgate : (coincides t && t.enLyc) = (coincides s && s.enLyc) := by rw [h.coincides_eq, h.enLyc_eq]
  rw [coincidenceCheck_eq, coincidenceCheck_eq, hgate]
  split
  · exact hflag.request hV _ _
  · exact hflag

/-- The pixels and the reads of a line are functions of bytes that agree. -/
theorem renderLine (h : V.Agree s t) (hV : V.Sound s.cfg) (line : Fin 144) :
    V.Agree (renderLine line s) (renderLine line t) := by
  have hpixels : linePixels t.cfg t.bus line = linePixels s.cfg s.bus line := by
    rw [h.cfg_eq, linePixels_congr hV.unread h.bytes]
  have hreads : lineReads t.cfg t.bus line = lineReads s.cfg s.bus line := by
    rw [h.cfg_eq, lineReads_congr hV.unread h.bytes]
  unfold Machine.renderLine
  rw [hpixels, hreads]
  exact (h.map (fun u => { u with buf := u.buf.set line (linePixels s.cfg s.bus line) }) fun _ _ _ _ => rfl).emit rfl

theorem decodeScanline (h : V.Agree s t) (hV : V.Sound s.cfg) (line : Nat) :
    V.Agree (decodeScanline line s) (decodeScanline line t) := by
  unfold Machine.decodeScanline
  split
  · split
    · exact (h.map clearBuffer fun _ _ _ _ => rfl).renderLine hV _
    · exact h.renderLine hV _
  · exact h

/-- The read of CONTROL and the frame are dropped where CONTROL may differ, and are the same where it may not. -/
theorem completeFrame (h : V.Agree s t) (hV : V.Sound s.cfg) : V.Agree (completeFrame s) (completeFrame t) := by
  refine h.emit ?_
  rw [h.cfg_eq, h.buf_eq]
  by_cases hc : V.addr = s.cfg.controlAddr
  · have dropped : ∀ u, (busRdEvent u s.cfg.controlAddr ::
        if displayEnabled u then [Event.frameReady s.buf] else []).filter V.keep = [] := by
      intro u
      obtain ⟨hread, hframe⟩ := hV.control hc (u.bus.read s.cfg.controlAddr) s.buf
      cases displayEnabled u <;> simp [busRdEvent, hread, hframe]
    rw [dropped, dropped]
  · have hread := h.bytes s.cfg.controlAddr (Ne.symm hc)
    rw [busRdEvent, busRdEvent, displayEnabled, displayEnabled, h.cfg_eq, hread]

theorem enterVblank (h : V.Agree s t) (hV : V.Sound s.cfg) : V.Agree (enterVblank s) (enterVblank t) := by
  have hm : V.Agree { s with mode := .vblank } { t with mode := .vblank } :=
    h.map (fun u => { u with mode := .vblank }) fun _ _ _ _ => rfl
  have hs := (hm.request hV .vblank .vblankEntry).statModeEntry hV .vblank
  exact hs.completeFrame (by rw [statModeEntry_cfg]; exact hV)

theorem setLy (h : V.Agree s t) (line : Nat) : V.Agree { s with ly := line } { t with ly := line } :=
  h.map (fun u => { u with ly := line }) fun _ _ _ _ => rfl

theorem transition (h : V.Agree s t) (hV : V.Sound s.cfg) : V.Agree (transition s) (transition t) := by
  unfold Machine.transition
  rw [h.mode_eq]
  cases s.mode with
  | oam => exact h.enter hV .xfer
  | xfer =>
    simp only [transitionXfer, enter_ly, h.ly_eq]
    exact (h.enter hV .hblank).decodeScanline (by rw [enter_cfg]; exact hV) s.ly
  | hblank =>
    simp only [transitionHblank, h.ly_eq]
    split
    · exact (h.setLy (s.ly + 1)).enterVblank hV
    · exact (h.setLy (s.ly + 1)).enter hV .oam
  | vblank =>
    simp only [transitionVblank, h.ly_eq]
    split
    · exact (h.setLy 0).enter hV .oam
    · exact h.setLy (s.ly + 1)

theorem advance (h : V.Agree s t) (hV : V.Sound s.cfg) : V.Agree (advance s) (advance t) :=
  (h.map leaveMode fun _ _ _ _ => rfl).transition hV

theorem runTransitions (h : V.Agree s t) (hV : V.Sound s.cfg) : V.Agree (runTransitions s) (runTransitions t) :=
  (runTransitions_simulation (R := fun s t => V.Agree s t ∧ V.Sound s.cfg)
    (fun _ _ ⟨h, _⟩ => ⟨h.mode_eq, h.acc_eq⟩) (fun s _ ⟨h, hV⟩ => ⟨h.advance hV, by rwa [advance_cfg]⟩) ⟨h, hV⟩).1

theorem addCycles (h : V.Agree s t) (n : Nat) : V.Agree (addCycles n s) (addCycles n t) :=
  h.map (Machine.addCycles n) fun _ _ _ _ => rfl

/-- STEP keeps the agreement. -/
theorem stepCycles (h : V.Agree s t) (hV : V.Sound s.cfg) (n : Nat) : V.Agree (stepCycles n s) (stepCycles n t) :=
  ((h.addCycles n).runTransitions hV).coincidenceCheck (by rw [runTransitions_cfg]; exact hV)

/-- After STEP the coincidence flag agrees as well: both sides compute it from the line and the compare target. -/
theorem stepCycles_frame (h : V.Agree s t) (hV : V.Sound s.cfg) (n : Nat) :
    Machine.stepCycles n t =
      { Machine.stepCycles n s with
        bus := (Machine.stepCycles n t).bus, trace := (Machine.stepCycles n t).trace } := by
  have hcoinc : (Machine.stepCycles n t).coinc = (Machine.stepCycles n s).coinc := by
    rw [stepCycles_eq, stepCycles_eq, coincidenceCheck_coinc, coincidenceCheck_coinc]
    exact ((h.addCycles n).runTransitions hV).coincides_eq
  calc Machine.stepCycles n t = _ := (h.stepCycles hV n).frame
    _ = _ := by rw [hcoinc]; rfl

end View.Agree

theorem exec_step_of_ready {s : State} (h : Ready s) (n : Nat) : exec (.step n) s = .next (stepCycles n s) := by
  simp [exec, execStep, whenRunning_of_ready h, countInRange]

theorem stepCycles_ready {s : State} (h : Ready s) (n : Nat) : Ready (stepCycles n s) := by
  simpa [Ready, stepCycles_eq] using h

end Sys2Proof.Machine
end

section
/-! One STEP against two (40_timing_controller.md R107): the check between them is all that tells them apart. -/

namespace Sys2Proof.Machine

/-- A STEP of a sum is STEP of the second count from where the first one's loop ended, without the check between. -/
theorem stepCycles_add (a b : Nat) (s : State) :
    stepCycles (a + b) s = stepCycles b (runTransitions (addCycles a s)) :=
  calc stepCycles (a + b) s
      = coincidenceCheck (runTransitions (addCycles b (addCycles a s))) := by simp [stepCycles, addCycles, Nat.add_assoc]
    _ = coincidenceCheck (runTransitions (addCycles b (runTransitions (addCycles a s)))) := by
        rw [runTransitions_addCycles]

/-- Everything but coincidence requests: their events, and what they can do to IF's STAT bit. -/
def butCoincidence (cfg : Config) : View where
  addr := cfg.ifAddr
  rel v w := (∀ j, j ≠ cfg.ifStatBit.val → w.getLsbD j = v.getLsbD j) ∧
    (v.getLsbD cfg.ifStatBit.val = true → w.getLsbD cfg.ifStatBit.val = true)
  keep e := !isCoincidence e

theorem butCoincidence_sound {cfg : Config} (h : configAdmitted cfg = true) : (butCoincidence cfg).Sound cfg := by
  obtain ⟨unread, hcontrol⟩ := ifAddr_unread h
  refine ⟨unread, ?or_rel, fun heq => absurd heq.symm hcontrol⟩
  case or_rel =>
    rintro v w m ⟨others, stat⟩
    refine ⟨fun j hj => ?_, fun hv => ?_⟩
    · rw [BitVec.getLsbD_or, BitVec.getLsbD_or, others j hj]
    · rw [BitVec.getLsbD_or, Bool.or_eq_true] at hv ⊢
      exact hv.imp_left stat

theorem butCoincidence_refl (s : State) : (butCoincidence s.cfg).Agree s s :=
  ⟨rfl, fun _ _ => rfl, ⟨fun _ _ => rfl, id⟩, rfl⟩

/-- A coincidence request sets IF's STAT bit alone, and its event is the one left out. -/
theorem agree_request_coincidence (s : State) :
    (butCoincidence s.cfg).Agree s (request .stat .coincidence s) := by
  refine ⟨rfl, fun x hx => request_read_other _ _ _ hx, ⟨fun j hj => ?others, fun hv => ?stat⟩, ?events⟩
  case others =>
    show ((request .stat .coincidence s).bus.read s.cfg.ifAddr).getLsbD j = _
    rw [request_ifAddr_getLsbD, show (irqBit s.cfg .stat).val = s.cfg.ifStatBit.val from rfl, decide_eq_false hj,
      Bool.or_false]
    rfl
  case stat =>
    show ((request .stat .coincidence s).bus.read s.cfg.ifAddr).getLsbD _ = true
    rw [request_ifAddr_getLsbD]
    exact Bool.or_eq_true_iff.mpr (.inl hv)
  case events => simp [butCoincidence, isCoincidence]

/-- The check does nothing but make a coincidence request and set the flag. -/
theorem agree_coincidenceCheck (s : State) : (butCoincidence s.cfg).Agree s (coincidenceCheck s) := by
  rw [coincidenceCheck_eq]
  split
  · exact (agree_request_coincidence s).setCoinc s.coinc (coincides s)
  · exact (butCoincidence_refl s).setCoinc s.coinc (coincides s)

/-- Settles O36: the second STEP starts from the loop's end in the one run and from the check after it in the other.
Those two states agree but for a coincidence request, and a STEP of the same count keeps that agreement. -/
theorem anyGroupingOfCyclesAgrees : Obligations.AnyGroupingOfCyclesAgrees := by
  intro s a b hs
  have hsum : exec (.step (a + b : Nat)) s = .next (stepCycles b (runTransitions (addCycles a s))) := by
    rw [exec_step_of_ready hs, stepCycles_add]
  have hcfg : (runTransitions (addCycles a s)).cfg = s.cfg := runTransitions_cfg _
  have hV : (butCoincidence s.cfg).Sound (runTransitions (addCycles a s)).cfg := by
    rw [hcfg]
    exact butCoincidence_sound hs.1
  have between : (butCoincidence s.cfg).Agree (runTransitions (addCycles a s)) (stepCycles a s) := by
    rw [← hcfg]
    exact agree_coincidenceCheck _
  obtain ⟨-, bytes, ⟨ifBits, statBit⟩, events⟩ := between.stepCycles hV b
  exact ⟨_, _, _, hsum, exec_step_of_ready hs a, exec_step_of_ready (stepCycles_ready hs a) b,
    between.stepCycles_frame hV b, events, bytes, ifBits, statBit⟩

end Sys2Proof.Machine
end

section
/-! The display enable (40_timing_controller.md R119; 43_frame_emission.md R180): it reaches the frame and nothing else,
and with bit 7 clear there is no frame. -/

namespace Sys2Proof.Machine

/-- Everything but CONTROL's byte, its reads and the frames it gates. -/
def butControl (cfg : Config) : View where
  addr := cfg.controlAddr
  rel _ _ := True
  keep e := !isFrame e && !isReadOf cfg.controlAddr e

theorem butControl_sound {cfg : Config} (h : Unread cfg cfg.controlAddr) : (butControl cfg).Sound cfg :=
  ⟨h, fun _ _ _ _ => trivial, fun _ _ _ => ⟨by simp [butControl, isReadOf], rfl⟩⟩

section
variable {s : State} {x : Address}

/-! An edge writes no bus byte but IF (20_memory.md R53). -/

theorem statModeEntry_read_other (m : Mode) (h : x ≠ s.cfg.ifAddr) :
    (statModeEntry m s).bus.read x = s.bus.read x := by
  unfold statModeEntry
  split
  · exact request_read_other _ _ s h
  · rfl

theorem enter_read_other (m : Mode) (h : x ≠ s.cfg.ifAddr) : (enter m s).bus.read x = s.bus.read x :=
  statModeEntry_read_other (s := { s with mode := m }) m h

theorem enterVblank_read_other (h : x ≠ s.cfg.ifAddr) : (enterVblank s).bus.read x = s.bus.read x := by
  unfold enterVblank
  rw [completeFrame_bus, statModeEntry_read_other _ (by exact h), request_read_other _ _ _ (by exact h)]

theorem advance_read_other (h : x ≠ s.cfg.ifAddr) : (advance s).bus.read x = s.bus.read x := by
  rcases advance_cases s with ⟨-, h'⟩ | ⟨-, h'⟩ | ⟨-, -, h'⟩ | ⟨-, -, h'⟩ | ⟨-, -, h'⟩ | ⟨-, -, h'⟩ <;> rw [h']
  · exact enter_read_other _ h
  · rw [decodeScanline_bus]
    exact enter_read_other _ h
  · exact enterVblank_read_other h
  · exact enter_read_other _ h
  · rfl
  · exact enter_read_other _ h

end

theorem displayEnabled_congr {s t : State} (hc : t.cfg = s.cfg)
    (hb : t.bus.read s.cfg.controlAddr = s.bus.read s.cfg.controlAddr) : displayEnabled t = displayEnabled s := by
  rw [displayEnabled, displayEnabled, hc, hb]

theorem displayEnabled_advance {s : State} (h : s.cfg.controlAddr ≠ s.cfg.ifAddr) :
    displayEnabled (advance s) = displayEnabled s :=
  displayEnabled_congr (advance_cfg s) (advance_read_other h)

theorem frames_enter (m : Mode) (s : State) : (enter m s).trace.filter isFrame = s.trace.filter isFrame :=
  filter_trace_statModeEntry (fun _ => rfl) m _

theorem frames_enterVblank {s : State} (hc : s.cfg.controlAddr ≠ s.cfg.ifAddr) (hd : displayEnabled s = false) :
    (enterVblank s).trace.filter isFrame = s.trace.filter isFrame := by
  have atRead : displayEnabled (statModeEntry .vblank (request .vblank .vblankEntry { s with mode := .vblank })) =
      false := by
    rw [← hd]
    refine displayEnabled_congr (statModeEntry_cfg ..) ?_
    rw [statModeEntry_read_other _ (by exact hc), request_read_other _ _ _ (by exact hc)]
  unfold enterVblank
  rw [completeFrame_trace, atRead, List.filter_append, filter_trace_statModeEntry fun _ => rfl]
  simp [busRdEvent, isFrame]

/-- With the display disabled no edge emits a frame. -/
theorem frames_advance {s : State} (hc : s.cfg.controlAddr ≠ s.cfg.ifAddr) (hd : displayEnabled s = false) :
    (advance s).trace.filter isFrame = s.trace.filter isFrame := by
  rcases advance_cases s with ⟨-, h⟩ | ⟨-, h⟩ | ⟨-, -, h⟩ | ⟨-, -, h⟩ | ⟨-, -, h⟩ | ⟨-, -, h⟩ <;> rw [h]
  · exact frames_enter _ _
  · rw [filter_trace_decodeScanline fun _ _ => rfl]
    exact frames_enter _ _
  · exact frames_enterVblank hc hd
  · exact frames_enter _ _
  · rfl
  · exact frames_enter _ _

/-- From `s` to `t` the display was disabled and no frame was emitted. -/
def DarkSince (s t : State) : Prop :=
  t.cfg = s.cfg ∧ displayEnabled t = false ∧ t.trace.filter isFrame = s.trace.filter isFrame

theorem darkSince_advance {s t : State} (hc : s.cfg.controlAddr ≠ s.cfg.ifAddr) (h : DarkSince s t) :
    DarkSince s (advance t) := by
  obtain ⟨hcfg, hoff, hframes⟩ := h
  have hct : t.cfg.controlAddr ≠ t.cfg.ifAddr := by rwa [hcfg]
  exact ⟨(advance_cfg t).trans hcfg, (displayEnabled_advance hct).trans hoff, (frames_advance hct hoff).trans hframes⟩

/-- With the display disabled STEP emits no frame (43_frame_emission.md R180). -/
theorem frames_stepCycles {s : State} (n : Nat) (hc : s.cfg.controlAddr ≠ s.cfg.ifAddr)
    (hd : displayEnabled s = false) : (stepCycles n s).trace.filter isFrame = s.trace.filter isFrame := by
  obtain ⟨-, -, frames⟩ : DarkSince s (runTransitions (addCycles n s)) :=
    runTransitions_induction (P := DarkSince s) (fun _ _ => darkSince_advance hc) ⟨rfl, hd, rfl⟩
  rw [stepCycles_eq, filter_trace_coincidenceCheck rfl]
  exact frames

/-- Settles O40: a state and the same state with another CONTROL byte agree on all but what CONTROL gates, and STEP
keeps that; with bit 7 clear no edge emits a frame. -/
theorem displayEnableGatesOnlyTheFrame : Obligations.DisplayEnableGatesOnlyTheFrame := by
  intro s bus' n hs hbus hscroll hmap htile
  have hV : (butControl s.cfg).Sound s.cfg := butControl_sound (unread_of_window hscroll hmap htile)
  have start : (butControl s.cfg).Agree s { s with bus := bus' } := ⟨rfl, hbus, trivial, rfl⟩
  obtain ⟨-, bytes, -, events⟩ := start.stepCycles hV n
  exact ⟨_, _, exec_step_of_ready hs n, exec_step_of_ready (by exact hs) n, start.stepCycles_frame hV n, bytes, events,
    frames_stepCycles n (ifAddr_unread hs.1).2⟩

end Sys2Proof.Machine
end

section
/-! The register port's address decode (41_register_port.md R140): which register an address selects, and the verdict
of a READ or WRITE word by what is selected. -/

namespace Sys2Proof

theorem portsDistinct_iff {cfg : Config} :
    Machine.portsDistinct cfg = true ↔
      cfg.statusAddr ≠ cfg.scanlineAddr ∧ cfg.statusAddr ≠ cfg.compareAddr ∧ cfg.scanlineAddr ≠ cfg.compareAddr := by
  simp [Machine.portsDistinct, and_assoc]

theorem portDecode_eq_status_iff {cfg : Config} {a : Address} : portDecode cfg a = .status ↔ a = cfg.statusAddr := by
  unfold portDecode
  split_ifs with hstatus <;> simp [hstatus]

/-- The test of SCANLINE comes second: distinctness keeps its address from the first test. -/
theorem portDecode_eq_scanline_iff {cfg : Config} {a : Address} (h : cfg.statusAddr ≠ cfg.scanlineAddr) :
    portDecode cfg a = .scanline ↔ a = cfg.scanlineAddr := by
  unfold portDecode
  split_ifs with hstatus hscanline
  · simp [hstatus, h]
  all_goals simp [hscanline]

theorem portDecode_eq_compare_iff {cfg : Config} {a : Address} (h : cfg.statusAddr ≠ cfg.compareAddr)
    (h' : cfg.scanlineAddr ≠ cfg.compareAddr) : portDecode cfg a = .compare ↔ a = cfg.compareAddr := by
  unfold portDecode
  split_ifs with hstatus hscanline hcompare
  · simp [hstatus, h]
  · simp [hscanline, h']
  · simp [hcompare]
  · simp [hcompare]

theorem portDecode_eq_unmapped_iff {cfg : Config} {a : Address} :
    portDecode cfg a = .unmapped ↔ a ≠ cfg.statusAddr ∧ a ≠ cfg.scanlineAddr ∧ a ≠ cfg.compareAddr := by
  unfold portDecode
  split_ifs with hstatus hscanline hcompare
  · simp [hstatus]
  · simp [hscanline]
  · simp [hcompare]
  · simp [hstatus, hscanline, hcompare]

/-- The well-formedness test and the decoder agree on what is off the port. -/
theorem onPort_eq_false_iff {cfg : Config} {a : Address} : onPort cfg a = false ↔ portDecode cfg a = .unmapped := by
  rw [portDecode_eq_unmapped_iff]
  simp [onPort, and_assoc]

/-- The verdict of a READ names the selected register. -/
theorem decodeRead_iff (cfg : Config) (a : Address) :
    (decodeRead cfg a = .readStatus ↔ portDecode cfg a = .status) ∧
    (decodeRead cfg a = .readScanline ↔ portDecode cfg a = .scanline) ∧
    (decodeRead cfg a = .readCompare ↔ portDecode cfg a = .compare) ∧
    (decodeRead cfg a = .readUnmapped a ↔ portDecode cfg a = .unmapped) := by
  unfold decodeRead
  cases portDecode cfg a <;> simp

/-- The verdict of a WRITE names the selected register and carries the value. -/
theorem decodeWrite_iff (cfg : Config) (a : Address) (v : Byte) :
    (decodeWrite cfg a v = .writeStatus v ↔ portDecode cfg a = .status) ∧
    (decodeWrite cfg a v = .writeScanline v ↔ portDecode cfg a = .scanline) ∧
    (decodeWrite cfg a v = .writeCompare v ↔ portDecode cfg a = .compare) ∧
    (decodeWrite cfg a v = .writeUnmapped a v ↔ portDecode cfg a = .unmapped) := by
  unfold decodeWrite
  cases portDecode cfg a <;> simp

/-- Settles O4: both verdicts name what the port selects, and with distinct addresses the port selects a register
exactly at its own address. -/
theorem portDecodesTheFullAddress : Obligations.PortDecodesTheFullAddress := by
  intro cfg a v hports
  obtain ⟨hstatusScanline, hstatusCompare, hscanlineCompare⟩ := portsDistinct_iff.mp hports
  have scanline := portDecode_eq_scanline_iff (a := a) hstatusScanline
  have compare := portDecode_eq_compare_iff (a := a) hstatusCompare hscanlineCompare
  obtain ⟨readStatus, readScanline, readCompare, readUnmapped⟩ := decodeRead_iff cfg a
  obtain ⟨writeStatus, writeScanline, writeCompare, writeUnmapped⟩ := decodeWrite_iff cfg a v
  exact ⟨readStatus.trans portDecode_eq_status_iff, readScanline.trans scanline, readCompare.trans compare,
    readUnmapped.trans portDecode_eq_unmapped_iff, writeStatus.trans portDecode_eq_status_iff,
    writeScanline.trans scanline, writeCompare.trans compare, writeUnmapped.trans portDecode_eq_unmapped_iff⟩

end Sys2Proof
end

section
/-! The register port's accesses in a ready state (41_register_port.md R143, R147, R148), and the stuck block that an
error leaves (60_exceptions.md R203). -/

namespace Sys2Proof.Machine

section
variable {s : State} (h : Ready s)
include h

theorem exec_readCompare_of_ready : exec .readCompare s = .next (returnByte s.lyc s) := by
  simp [exec, execReadCompare, whenRunning_of_ready h]

theorem exec_writeCompare_of_ready (v : Byte) : exec (.writeCompare v) s = .next { s with lyc := v } := by
  simp [exec, execWriteCompare, whenRunning_of_ready h]

theorem exec_readUnmapped_of_ready (a : Address) :
    exec (.readUnmapped a) s = .next (raise (.unmappedRegister a) s) := by
  simp [exec, execReadUnmapped, whenRunning_of_ready h]

theorem exec_writeUnmapped_of_ready (a : Address) (v : Byte) :
    exec (.writeUnmapped a v) s = .next (raise (.unmappedRegister a) s) := by
  simp [exec, execWriteUnmapped, whenRunning_of_ready h]

end

theorem execInit_of_faulted {s : State} {e : Error} (hc : configAdmitted s.cfg = true) (h : s.run = .faulted e) :
    execInit s = .fault (.stuck e) := by
  simp [execInit, whenAdmitted, hc, h]

/-- A faulted block is stuck under every operation but INVALID. INIT has its own guard, the others share one. -/
theorem exec_of_faulted {i : Instr} {s : State} {e : Error} (hc : configAdmitted s.cfg = true)
    (h : s.run = .faulted e) (hv : isInvalid i = false) : exec i s = .fault (.stuck e) := by
  by_cases hi : i = .init
  · rw [hi]
    exact execInit_of_faulted hc h
  · obtain ⟨k, hk⟩ := exec_eq_whenRunning hv hi
    rw [hk, whenRunning_of_faulted hc h]

/-- SCROLL-Y, SCROLL-X, CONTROL, PALETTE and IF at the default addresses (00_scope.md R8; log 6) are off the port. -/
theorem onPort_defaults_eq_false :
    ∀ a ∈ [(0xFF42 : Address), 0xFF43, 0xFF40, 0xFF47, 0xFF0F], onPort Config.defaults a = false := by
  simp [onPort, Config.defaults]

/-- Settles O14: off the port both decoders answer the unmapped access, whose own rule raises the error; the state it
leaves keeps its parameters and is faulted, so every operation after it is stuck. -/
theorem unmappedAccessFaultsForGood : Obligations.UnmappedAccessFaultsForGood := by
  refine ⟨fun s a v hs hoff => ?_, onPort_defaults_eq_false⟩
  have unmapped : portDecode s.cfg a = .unmapped := onPort_eq_false_iff.mp hoff
  obtain ⟨-, -, -, decodedRead⟩ := decodeRead_iff s.cfg a
  obtain ⟨-, -, -, decodedWrite⟩ := decodeWrite_iff s.cfg a v
  have read := exec_readUnmapped_of_ready hs a
  have write := exec_writeUnmapped_of_ready hs a v
  refine ⟨?viaRead, ?viaWrite, read, write, fun j hj => exec_of_faulted hs.1 rfl hj⟩
  case viaRead => rw [decodedRead.mpr unmapped]; exact read
  case viaWrite => rw [decodedWrite.mpr unmapped]; exact write

/-- Settles O19: the READ returns `lyc` whatever it is, and a WRITE leaves the block ready for it. -/
theorem compareReadsBackAsWritten : Obligations.CompareReadsBackAsWritten := by
  intro s v hs
  have written : Ready { s with lyc := v } := hs
  exact ⟨exec_readCompare_of_ready hs, exec_writeCompare_of_ready hs v, exec_readCompare_of_ready written⟩

end Sys2Proof.Machine
end

section
/-! The trace as a log (43_frame_emission.md R181): every operation appends to it and to the returned bytes, so an
emitted frame stays as it was emitted. -/

namespace Sys2Proof.Machine

theorem trace_prefix_emit (es : List Event) (s : State) : s.trace <+: (emit es s).trace :=
  List.prefix_append s.trace es

theorem trace_prefix_request (line : IrqLine) (cause : Cause) (s : State) : s.trace <+: (request line cause s).trace :=
  trace_prefix_emit _ (ifSet (irqBit s.cfg line) s)

theorem trace_prefix_completeFrame (s : State) : s.trace <+: (completeFrame s).trace :=
  trace_prefix_emit _ s

theorem trace_prefix_renderLine (line : Fin 144) (s : State) : s.trace <+: (renderLine line s).trace :=
  trace_prefix_emit _ { s with buf := s.buf.set line (linePixels s.cfg s.bus line) }

theorem trace_prefix_statModeEntry (m : Mode) (s : State) : s.trace <+: (statModeEntry m s).trace := by
  unfold statModeEntry
  split
  · exact trace_prefix_request ..
  · exact List.prefix_rfl

theorem trace_prefix_enter (m : Mode) (s : State) : s.trace <+: (enter m s).trace :=
  trace_prefix_statModeEntry m { s with mode := m }

theorem trace_prefix_coincidenceCheck (s : State) : s.trace <+: (coincidenceCheck s).trace := by
  rw [coincidenceCheck_eq]
  split
  · exact trace_prefix_request _ _ { s with coinc := coincides s }
  · exact List.prefix_rfl

theorem trace_prefix_decodeScanline (line : Nat) (s : State) : s.trace <+: (decodeScanline line s).trace := by
  unfold decodeScanline
  split
  · split
    · exact trace_prefix_renderLine _ (clearBuffer s)
    · exact trace_prefix_renderLine _ s
  · exact List.prefix_rfl

theorem trace_prefix_enterVblank (s : State) : s.trace <+: (enterVblank s).trace :=
  calc s.trace
    _ <+: (request .vblank .vblankEntry { s with mode := .vblank }).trace :=
        trace_prefix_request _ _ { s with mode := .vblank }
    _ <+: (statModeEntry .vblank (request .vblank .vblankEntry { s with mode := .vblank })).trace :=
        trace_prefix_statModeEntry ..
    _ <+: (enterVblank s).trace := trace_prefix_completeFrame _

/-- The edges differ in what they append, and the parts of an edge append one after the other. -/
theorem trace_prefix_advance (s : State) : s.trace <+: (advance s).trace := by
  rcases advance_cases s with ⟨-, h⟩ | ⟨-, h⟩ | ⟨-, -, h⟩ | ⟨-, -, h⟩ | ⟨-, -, h⟩ | ⟨-, -, h⟩ <;> rw [h]
  · exact trace_prefix_enter _ (leaveMode s)
  · exact (trace_prefix_enter .hblank (leaveMode s)).trans (trace_prefix_decodeScanline ..)
  · exact trace_prefix_enterVblank { leaveMode s with ly := 144 }
  · exact trace_prefix_enter _ { leaveMode s with ly := s.ly + 1 }
  · exact List.prefix_rfl
  · exact trace_prefix_enter _ { leaveMode s with ly := 0 }

theorem trace_prefix_runTransitions (s : State) : s.trace <+: (runTransitions s).trace :=
  runTransitions_induction (P := fun t => s.trace <+: t.trace) (fun t _ h => h.trans (trace_prefix_advance t))
    List.prefix_rfl

theorem trace_prefix_stepCycles (n : Nat) (s : State) : s.trace <+: (stepCycles n s).trace :=
  (trace_prefix_runTransitions (addCycles n s)).trans (trace_prefix_coincidenceCheck _)

@[simp] theorem stepCycles_returned (n : Nat) (s : State) : (stepCycles n s).returned = s.returned := by
  simp [stepCycles_eq]

/-- What an operation that goes on does to the two logs: STEP, the edges and the other internal operations append to
the trace, a READ to the returned bytes, and INIT, WRITE and a raised error to neither. -/
theorem exec_appends {s t : State} {i : Instr} (h : exec i s = .next t) :
    s.trace <+: t.trace ∧ s.returned <+: t.returned := by
  obtain ⟨-, -, rfl⟩ | ⟨-, hrule⟩ := exec_next_cases h
  case inl => exact ⟨List.prefix_rfl, List.prefix_rfl⟩
  case inr =>
    rcases hrule with ⟨n, -, -, rfl⟩ | ⟨n, -, -, rfl⟩ | ⟨-, rfl⟩ | ⟨-, rfl⟩ | ⟨-, rfl⟩ | ⟨a, -, rfl⟩ | ⟨v, -, rfl⟩ |
      ⟨v, -, rfl⟩ | ⟨v, -, rfl⟩ | ⟨a, v, -, rfl⟩ | ⟨-, -, rfl⟩ | ⟨m, -, rfl⟩ | ⟨-, rfl⟩ | ⟨line, -, rfl⟩ | ⟨-, rfl⟩
    · exact ⟨trace_prefix_stepCycles .., by simp⟩
    · exact ⟨List.prefix_rfl, List.prefix_rfl⟩
    · exact ⟨List.prefix_rfl, List.prefix_append ..⟩
    · exact ⟨List.prefix_rfl, List.prefix_append ..⟩
    · exact ⟨List.prefix_rfl, List.prefix_append ..⟩
    · exact ⟨List.prefix_rfl, List.prefix_rfl⟩
    · exact ⟨List.prefix_rfl, List.prefix_rfl⟩
    · exact ⟨List.prefix_rfl, List.prefix_rfl⟩
    · exact ⟨List.prefix_rfl, List.prefix_rfl⟩
    · exact ⟨List.prefix_rfl, List.prefix_rfl⟩
    · exact ⟨trace_prefix_advance s, by simp⟩
    · exact ⟨trace_prefix_statModeEntry .., by simp⟩
    · exact ⟨trace_prefix_coincidenceCheck s, by simp⟩
    · exact ⟨trace_prefix_decodeScanline .., by simp⟩
    · exact ⟨trace_prefix_completeFrame s, by simp⟩

theorem exec_completeFrame_of_ready {s : State} (h : Ready s) : exec .completeFrame s = .next (completeFrame s) := by
  simp [exec, execCompleteFrame, whenRunning_of_ready h]

/-- With the display enabled the frame's event comes last, after the read of CONTROL. -/
theorem getLast?_trace_completeFrame {s : State} (h : displayEnabled s = true) :
    (completeFrame s).trace.getLast? = some (.frameReady s.buf) := by
  rw [completeFrame_trace, if_pos h]
  simp

/-- Settles O50: COMPLETE_FRAME's last event holds the buffer as it stands, and no operation that goes on takes an event
or a returned byte away. -/
theorem emittedFramesAreImmutable : Obligations.EmittedFramesAreImmutable :=
  ⟨fun _ hs hd => ⟨_, exec_completeFrame_of_ready hs, getLast?_trace_completeFrame hd⟩, fun _ _ _ => exec_appends⟩

end Sys2Proof.Machine
end

section
/-! The transaction words (30_encoding.md R81 to R90): which word decodes to what, and that decoding and encoding undo
each other. -/

namespace Sys2Proof

/-! The decoder on a word made of its fields. -/

theorem decode_make_step (cfg : Config) (n : Int) : decode cfg (TxWord.make 0b00#2 0 0) n = .step n := by
  simp [decode]

theorem decode_make_read (cfg : Config) (a : Address) (n : Int) :
    decode cfg (TxWord.make 0b01#2 a 0) n = decodeRead cfg a := by
  simp [decode]

theorem decode_make_write (cfg : Config) (a : Address) (v : Byte) (n : Int) :
    decode cfg (TxWord.make 0b10#2 a v) n = decodeWrite cfg a v := by
  simp [decode]

theorem decode_make_init (cfg : Config) (n : Int) : decode cfg (TxWord.make 0b11#2 0 0) n = .init := by
  simp [decode]

/-- The 24 bits below the kind are the address and data fields. -/
theorem TxWord.low24_make_eq_zero_iff (kind : BitVec 2) (a : Address) (v : Byte) :
    (TxWord.make kind a v).extractLsb' 0 24 = 0 ↔ a = 0 ∧ v = 0 := by
  have bits : ∀ i < 24, ((TxWord.make kind a v).extractLsb' 0 24).getLsbD i =
      if i < 8 then v.getLsbD i else a.getLsbD (i - 8) := by
    intro i hi
    simp [TxWord.getLsbD_make, hi]
  constructor
  · intro h
    simp only [h] at bits
    refine ⟨BitVec.eq_of_getLsbD_eq fun i hi => ?_, BitVec.eq_of_getLsbD_eq fun i hi => ?_⟩
    · simpa using (bits (i + 8) (by omega)).symm
    · simpa [hi] using (bits i (by omega)).symm
  · rintro ⟨rfl, rfl⟩
    exact BitVec.eq_of_getLsbD_eq fun i hi => by rw [bits i hi]; simp

/-- R85's reserved fields, by the three fields of the word. -/
theorem reservedNonZero_make (kind : BitVec 2) (a : Address) (v : Byte) :
    reservedNonZero (TxWord.make kind a v) = true ↔
      (kind = 0b00#2 ∧ ¬ (a = 0 ∧ v = 0)) ∨ (kind = 0b01#2 ∧ v ≠ 0) ∨ (kind = 0b11#2 ∧ ¬ (a = 0 ∧ v = 0)) := by
  have hkind : (TxWord.make kind a v).extractLsb' 24 2 = kind := TxWord.kind_make kind a v
  have hdata : (TxWord.make kind a v).extractLsb' 0 8 = v := TxWord.data_make kind a v
  simp only [reservedNonZero, hkind, hdata, ← TxWord.low24_make_eq_zero_iff kind a v, Bool.or_eq_true, Bool.and_eq_true,
    beq_iff_eq, bne_iff_ne, ne_eq, or_assoc]

/-- Every word is the word of one of R87's rows, or has a reserved field that is not zero. -/
theorem TxWord.cases (w : TxWord) :
    w = TxWord.make 0b00#2 0 0 ∨ (∃ a, w = TxWord.make 0b01#2 a 0) ∨ (∃ a v, w = TxWord.make 0b10#2 a v) ∨
      w = TxWord.make 0b11#2 0 0 ∨ reservedNonZero w = true := by
  obtain ⟨kind, a, v, rfl⟩ : ∃ kind a v, w = TxWord.make kind a v := ⟨_, _, _, w.make_fields.symm⟩
  have kinds : ∀ k : BitVec 2, k = 0b00#2 ∨ k = 0b01#2 ∨ k = 0b10#2 ∨ k = 0b11#2 := by decide
  rw [reservedNonZero_make]
  obtain rfl | rfl | rfl | rfl := kinds kind
  · by_cases h : a = 0 ∧ v = 0
    · obtain ⟨rfl, rfl⟩ := h
      exact .inl rfl
    · exact .inr (.inr (.inr (.inr (.inl ⟨rfl, h⟩))))
  · by_cases h : v = 0
    · subst h
      exact .inr (.inl ⟨a, rfl⟩)
    · exact .inr (.inr (.inr (.inr (.inr (.inl ⟨rfl, h⟩)))))
  · exact .inr (.inr (.inl ⟨a, v, rfl⟩))
  · by_cases h : a = 0 ∧ v = 0
    · obtain ⟨rfl, rfl⟩ := h
      exact .inr (.inr (.inr (.inl rfl)))
    · exact .inr (.inr (.inr (.inr (.inr (.inr ⟨rfl, h⟩)))))

/-- A word with a reserved field that is not zero is INVALID (R89). -/
theorem decode_of_reservedNonZero {w : TxWord} (cfg : Config) (n : Int) (h : reservedNonZero w = true) :
    decode cfg w n = .invalid w := by
  obtain ⟨kind, a, v, rfl⟩ : ∃ kind a v, w = TxWord.make kind a v := ⟨_, _, _, w.make_fields.symm⟩
  rcases (reservedNonZero_make kind a v).mp h with ⟨rfl, hlow⟩ | ⟨rfl, hdata⟩ | ⟨rfl, hlow⟩
  · simpa [decode] using hlow
  · simp [decode, show v ≠ 0#8 from hdata]
  · simpa [decode] using hlow

/-- The decoder's five verdicts, each with the word it is the verdict of (R87). -/
theorem decode_cases (cfg : Config) (w : TxWord) (n : Int) :
    (w = TxWord.make 0b00#2 0 0 ∧ decode cfg w n = .step n) ∨
    (∃ a, w = TxWord.make 0b01#2 a 0 ∧ decode cfg w n = decodeRead cfg a) ∨
    (∃ a v, w = TxWord.make 0b10#2 a v ∧ decode cfg w n = decodeWrite cfg a v) ∨
    (w = TxWord.make 0b11#2 0 0 ∧ decode cfg w n = .init) ∨
    (reservedNonZero w = true ∧ decode cfg w n = .invalid w) := by
  obtain rfl | ⟨a, rfl⟩ | ⟨a, v, rfl⟩ | rfl | hres := w.cases
  · exact .inl ⟨rfl, decode_make_step ..⟩
  · exact .inr (.inl ⟨a, rfl, decode_make_read ..⟩)
  · exact .inr (.inr (.inl ⟨a, v, rfl, decode_make_write ..⟩))
  · exact .inr (.inr (.inr (.inl ⟨rfl, decode_make_init ..⟩)))
  · exact .inr (.inr (.inr (.inr ⟨hres, decode_of_reservedNonZero cfg n hres⟩)))

/-! The verdict of a READ or a WRITE word: it encodes to that word, is well formed and is not INVALID. -/

theorem encode_decodeRead (cfg : Config) (a : Address) :
    encode cfg (decodeRead cfg a) = some (TxWord.make 0b01#2 a 0, 0) := by
  unfold decodeRead portDecode
  split_ifs with hstatus hscanline hcompare
  · rw [hstatus]; rfl
  · rw [hscanline]; rfl
  · rw [hcompare]; rfl
  · rfl

theorem encode_decodeWrite (cfg : Config) (a : Address) (v : Byte) :
    encode cfg (decodeWrite cfg a v) = some (TxWord.make 0b10#2 a v, 0) := by
  unfold decodeWrite portDecode
  split_ifs with hstatus hscanline hcompare
  · rw [hstatus]; rfl
  · rw [hscanline]; rfl
  · rw [hcompare]; rfl
  · rfl

theorem wellFormed_decodeRead (cfg : Config) (a : Address) : WellFormed cfg (decodeRead cfg a) = true := by
  unfold decodeRead
  cases hp : portDecode cfg a with
  | unmapped => simp [WellFormed, onPort_eq_false_iff.mpr hp]
  | status | scanline | compare => rfl

theorem wellFormed_decodeWrite (cfg : Config) (a : Address) (v : Byte) :
    WellFormed cfg (decodeWrite cfg a v) = true := by
  unfold decodeWrite
  cases hp : portDecode cfg a with
  | unmapped => simp [WellFormed, onPort_eq_false_iff.mpr hp]
  | status | scanline | compare => rfl

theorem decodeRead_ne_invalid (cfg : Config) (a : Address) (w : TxWord) : decodeRead cfg a ≠ .invalid w := by
  unfold decodeRead
  cases portDecode cfg a <;> simp

theorem decodeWrite_ne_invalid (cfg : Config) (a : Address) (v : Byte) (w : TxWord) :
    decodeWrite cfg a v ≠ .invalid w := by
  unfold decodeWrite
  cases portDecode cfg a <;> simp

/-- Settles O1: the word carries the operation's kind, so the decoder takes that row, and with distinct ports the row's
address decode names the operation's own register. -/
theorem decodeOfEncodeIsTheOperation : Obligations.DecodeOfEncodeIsTheOperation := by
  intro cfg i w n hports hwf henc
  obtain ⟨hstatusScanline, hstatusCompare, hscanlineCompare⟩ := portsDistinct_iff.mp hports
  have hstatus : portDecode cfg cfg.statusAddr = .status := portDecode_eq_status_iff.mpr rfl
  have hscanline : portDecode cfg cfg.scanlineAddr = .scanline := (portDecode_eq_scanline_iff hstatusScanline).mpr rfl
  have hcompare : portDecode cfg cfg.compareAddr = .compare :=
    (portDecode_eq_compare_iff hstatusCompare hscanlineCompare).mpr rfl
  have hunmapped : ∀ a, (!onPort cfg a) = true → portDecode cfg a = .unmapped := fun a h =>
    onPort_eq_false_iff.mp (by simpa using h)
  cases i <;> cases henc
  case step => exact decode_make_step cfg n
  case readStatus => rw [decode_make_read, decodeRead, hstatus]
  case readScanline => rw [decode_make_read, decodeRead, hscanline]
  case readCompare => rw [decode_make_read, decodeRead, hcompare]
  case readUnmapped a => rw [decode_make_read, decodeRead, hunmapped a hwf]
  case writeStatus => rw [decode_make_write, decodeWrite, hstatus]
  case writeScanline => rw [decode_make_write, decodeWrite, hscanline]
  case writeCompare => rw [decode_make_write, decodeWrite, hcompare]
  case writeUnmapped a v => rw [decode_make_write, decodeWrite, hunmapped a hwf]
  case init => exact decode_make_init cfg 0
  case invalid => exact decode_of_reservedNonZero cfg 0 hwf

/-- A word of another kind than STEP's is not 0. -/
theorem TxWord.make_ne_zero {kind : BitVec 2} (h : kind ≠ 0) (a : Address) (v : Byte) : TxWord.make kind a v ≠ 0 := by
  intro hzero
  apply h
  rw [← TxWord.kind_make kind a v, hzero]
  rfl

theorem ne_zero_of_reservedNonZero {w : TxWord} (h : reservedNonZero w = true) : w ≠ 0 := by
  rintro rfl
  exact absurd h (by decide)

/-- Settles O2: by the decoder's verdicts. The word of STEP is 0, and it alone keeps the count; every other word is not
0 and its verdict is well formed. -/
theorem encodeOfDecodeIsTheWord : Obligations.EncodeOfDecodeIsTheWord := by
  intro cfg w n
  have nonzero : ∀ i, w ≠ 0 → encode cfg i = some (w, 0) → WellFormed cfg i = true →
      encode cfg i = some (w, if w = 0 then n else 0) ∧ (WellFormed cfg i = true ↔ (w = 0 → 0 ≤ n)) :=
    fun i hw henc hwf => ⟨by rw [if_neg hw, henc], fun _ h => absurd h hw, fun _ => hwf⟩
  obtain ⟨rfl, hd⟩ | ⟨a, rfl, hd⟩ | ⟨a, v, rfl, hd⟩ | ⟨rfl, hd⟩ | ⟨hres, hd⟩ := decode_cases cfg w n <;> rw [hd]
  · have hzero : TxWord.make 0b00#2 0 0 = 0 := by decide
    rw [if_pos hzero]
    exact ⟨rfl, fun h _ => of_decide_eq_true h, fun h => decide_eq_true (h hzero)⟩
  · exact nonzero _ (TxWord.make_ne_zero (by decide) a 0) (encode_decodeRead cfg a) (wellFormed_decodeRead cfg a)
  · exact nonzero _ (TxWord.make_ne_zero (by decide) a v) (encode_decodeWrite cfg a v) (wellFormed_decodeWrite cfg a v)
  · exact nonzero _ (TxWord.make_ne_zero (by decide) 0 0) rfl rfl
  · exact nonzero _ (ne_zero_of_reservedNonZero hres) rfl hres

/-- Settles O3: a reserved field that is not zero gives INVALID with that word, and the words of the other verdicts have
none. -/
theorem invalidExactlyWhenReservedNonZero : Obligations.InvalidExactlyWhenReservedNonZero := by
  intro cfg w n
  obtain ⟨rfl, hd⟩ | ⟨a, rfl, hd⟩ | ⟨a, v, rfl, hd⟩ | ⟨rfl, hd⟩ | ⟨hres, hd⟩ := decode_cases cfg w n <;> rw [hd]
  · simp [reservedNonZero_make]
  · simp [reservedNonZero_make, decodeRead_ne_invalid]
  · simp [reservedNonZero_make, decodeWrite_ne_invalid]
  · simp [reservedNonZero_make]
  · simp [hres]

/-- Settles O5: each word's fields, read off its digits, take it to its row of R87. -/
theorem wordsOfTheSpecDecode : Obligations.WordsOfTheSpecDecode := by
  unfold Obligations.WordsOfTheSpecDecode
  decide

end Sys2Proof
end

section
/-! What each operation does in a ready state, one equation per operation, and the guards before it: the lifecycle and
the parameters (60_exceptions.md R205). -/

namespace Sys2Proof.Machine

section
variable {s : State} (h : Ready s)
include h

theorem exec_readStatus_of_ready : exec .readStatus s = .next (returnByte (statusValue s) s) := by
  simp [exec, execReadStatus, whenRunning_of_ready h]

theorem exec_readScanline_of_ready : exec .readScanline s = .next (returnByte (scanlineValue s) s) := by
  simp [exec, execReadScanline, whenRunning_of_ready h]

theorem exec_writeStatus_of_ready (v : Byte) : exec (.writeStatus v) s = .next (storeStatus v s) := by
  simp [exec, execWriteStatus, whenRunning_of_ready h]

theorem exec_writeScanline_of_ready (v : Byte) : exec (.writeScanline v) s = .next { s with ly := 0 } := by
  simp [exec, execWriteScanline, whenRunning_of_ready h]

theorem exec_statModeEntry_of_ready (m : Mode) : exec (.statModeEntry m) s = .next (statModeEntry m s) := by
  simp [exec, execStatModeEntry, whenRunning_of_ready h]

theorem exec_coincidenceCheck_of_ready : exec .coincidenceCheck s = .next (coincidenceCheck s) := by
  simp [exec, execCoincidenceCheck, whenRunning_of_ready h]

theorem exec_decodeScanline_of_ready (line : Nat) : exec (.decodeScanline line) s = .next (decodeScanline line s) := by
  simp [exec, execDecodeScanline, whenRunning_of_ready h]

theorem exec_step_neg_of_ready {n : Int} (hn : n < 0) :
    exec (.step n) s = .next (raise (.outOfRangeCycleCount n) s) := by
  simp [exec, execStep, whenRunning_of_ready h, countInRange, Int.not_le.mpr hn]

end

theorem exec_invalid (w : TxWord) (s : State) : exec (.invalid w) s = .refused (.invalidWord w) := rfl

theorem execInit_of_not_faulted {s : State} (hc : configAdmitted s.cfg = true)
    (h : s.run = .uninit ∨ s.run = .running) :
    execInit s = .next (initialise s) := by
  rcases h with h | h <;> simp [execInit, whenAdmitted, hc, h]

/-- Parameters that the spec does not admit are refused before the lifecycle is looked at. -/
theorem exec_of_not_admitted {i : Instr} {s : State} (hc : configAdmitted s.cfg = false) (hv : isInvalid i = false) :
    exec i s = .refused .configurationNotAdmitted := by
  by_cases hi : i = .init
  · rw [hi]
    exact show execInit s = _ from whenAdmitted_of_not hc _
  · obtain ⟨k, hk⟩ := exec_eq_whenRunning hv hi
    rw [hk, whenRunning, whenAdmitted_of_not hc]

/-- Every operation but INIT that answers a next state was ready. -/
theorem ready_of_exec_next {i : Instr} {s t : State} (hi : i ≠ .init) (h : exec i s = .next t) : Ready s := by
  obtain ⟨rfl, -, -⟩ | ⟨hs, -⟩ := exec_next_cases h
  · exact absurd rfl hi
  · exact hs

/-- What admitted parameters are, by the words of 20_memory.md R54 and 00_scope.md R8, R10 and R12. -/
theorem configAdmitted_iff {cfg : Config} :
    configAdmitted cfg = true ↔
      (cfg.statusAddr ≠ cfg.scanlineAddr ∧ cfg.statusAddr ≠ cfg.compareAddr ∧ cfg.scanlineAddr ≠ cfg.compareAddr) ∧
      cfg.ifVblankBit ≠ cfg.ifStatBit ∧
      (cfg.ifAddr ≠ cfg.scrollYAddr ∧ cfg.ifAddr ≠ cfg.controlAddr ∧
        1024 ≤ (cfg.ifAddr - cfg.mapBase).toNat ∧ 4096 ≤ (cfg.ifAddr - cfg.tileBase).toNat) ∧
      cfg.resolve = Resolve.or := by
  simp [configAdmitted, ifApart, ← portsDistinct_iff, and_assoc]

theorem resolvePixel_or (a b : Bool) : resolvePixel Resolve.or a b = shade (a || b) := by
  cases a <;> cases b <;> rfl

/-- Settles O10: every operation but INIT and INVALID stands under one guard, which refuses while Uninit. -/
theorem onlyInitRunsBeforeInit : Obligations.OnlyInitRunsBeforeInit := by
  intro s i hc hrun hi hv
  obtain ⟨k, hk⟩ := exec_eq_whenRunning hv hi
  rw [hk, whenRunning_of_uninit hc hrun]

/-- Settles O11: INIT's own guard and the guard of the others both stop a faulted block. -/
theorem faultedBlockIsStuck : Obligations.FaultedBlockIsStuck :=
  fun _ _ _ hc hrun hv => exec_of_faulted hc hrun hv

/-- Settles O12: the verdict is refused by its own name, and the word's verdict is INVALID. -/
theorem invalidWordIsRefusedInEveryState : Obligations.InvalidWordIsRefusedInEveryState := by
  intro s w n hres
  rw [decode_of_reservedNonZero s.cfg n hres]
  exact ⟨exec_invalid w s, exec_invalid w s⟩

/-- Settles O13: each way out contradicts one part of what admitted parameters are. -/
theorem inadmissibleConfigurationIsRefused : Obligations.InadmissibleConfigurationIsRefused := by
  intro s i hv hbad
  refine exec_of_not_admitted (Bool.eq_false_iff.mpr fun hc => ?_) hv
  obtain ⟨⟨hports₁, hports₂, hports₃⟩, hbits, ⟨hscroll, hcontrol, hmap, htile⟩, hresolve⟩ := configAdmitted_iff.mp hc
  rcases hbad with ⟨k, hk, heq⟩ | ⟨k, hk, heq⟩ | heq | heq | heq | heq | heq | heq | ⟨a, b, hne⟩
  · exact window_ne hk (by omega) hmap heq.symm
  · exact window_ne hk (by omega) htile heq.symm
  · exact hscroll heq
  · exact hcontrol heq
  · exact hports₁ heq
  · exact hports₂ heq
  · exact hports₃ heq
  · exact hbits heq
  · exact hne (hresolve ▸ resolvePixel_or a b)

/-- Settles O15: the guard of the count comes before its cycles are added. -/
theorem negativeCountIsRejected : Obligations.NegativeCountIsRejected :=
  ⟨fun _ _ hs hn => exec_step_neg_of_ready hs hn, fun _ => rfl, fun _ => rfl⟩

@[simp] theorem stepCycles_run (n : Nat) (s : State) : (stepCycles n s).run = s.run := by simp [stepCycles_eq]

/-- The lifecycle status after an operation: Running, or an error is raised by one of the three that raise one
(60_exceptions.md R201, R202). -/
theorem exec_next_run {i : Instr} {s t : State} (h : exec i s = .next t) :
    t.run = .running ∨ ∃ e, t = raise e s ∧
      ((∃ a, i = .readUnmapped a ∧ e = .unmappedRegister a) ∨
       (∃ a v, i = .writeUnmapped a v ∧ e = .unmappedRegister a) ∨
       (∃ n, n < 0 ∧ i = .step n ∧ e = .outOfRangeCycleCount n)) := by
  obtain ⟨-, -, rfl⟩ | ⟨⟨-, hrun⟩, hrule⟩ := exec_next_cases h
  · exact .inl rfl
  · rcases hrule with ⟨n, -, -, rfl⟩ | ⟨n, hi, hn, rfl⟩ | ⟨-, rfl⟩ | ⟨-, rfl⟩ | ⟨-, rfl⟩ | ⟨a, hi, rfl⟩ | ⟨v, -, rfl⟩ |
      ⟨v, -, rfl⟩ | ⟨v, -, rfl⟩ | ⟨a, v, hi, rfl⟩ | ⟨-, -, rfl⟩ | ⟨m, -, rfl⟩ | ⟨-, rfl⟩ | ⟨line, -, rfl⟩ | ⟨-, rfl⟩
    · exact .inl (by simpa using hrun)
    · exact .inr ⟨_, rfl, .inr (.inr ⟨n, hn, hi, rfl⟩)⟩
    · exact .inl (by simpa using hrun)
    · exact .inl (by simpa using hrun)
    · exact .inl (by simpa using hrun)
    · exact .inr ⟨_, rfl, .inl ⟨a, hi, rfl⟩⟩
    · exact .inl (by simpa using hrun)
    · exact .inl (by simpa using hrun)
    · exact .inl (by simpa using hrun)
    · exact .inr ⟨_, rfl, .inr (.inl ⟨a, v, hi, rfl⟩)⟩
    · exact .inl (by simpa using hrun)
    · exact .inl (by simpa using hrun)
    · exact .inl (by simpa using hrun)
    · exact .inl (by simpa using hrun)
    · exact .inl (by simpa using hrun)

/-- Settles O16: a faulted next state is not Running, so its error was raised, and raising changes `run` alone. -/
theorem errorsArePreciseAndOnlyTheseOperationsRaise : Obligations.ErrorsArePreciseAndOnlyTheseOperationsRaise := by
  intro s t i e h hfault
  obtain hrun | ⟨e', rfl, hraiser⟩ := exec_next_run h
  · simp [hrun] at hfault
  · obtain rfl : e' = e := by simpa using hfault
    exact ⟨rfl, hraiser⟩

/-- Settles O8: with no move the step is the idle one. -/
theorem emptyQueueWaitsUnlessFaulted : Obligations.EmptyQueueWaitsUnlessFaulted := by
  intro s hq
  rw [step_nil hq, idle]
  cases hrun : s.run with
  | uninit => exact ⟨fun _ => rfl, fun e he => by cases he⟩
  | running => exact ⟨fun _ => rfl, fun e he => by cases he⟩
  | faulted e => exact ⟨fun h => absurd rfl (h e), fun e' he => by cases he; rfl⟩

/-- Settles O6: an issued word at the head of the queue is what a step decodes and executes, and withFetchWord puts the
table's word there. -/
theorem stepExecutesTheDecodedTransaction : Obligations.StepExecutesTheDecodedTransaction := by
  have issued : ∀ (s : State) (w : TxWord) (n : Int) (rest : List HostMove), s.hostQueue = .issue w n :: rest →
      step s = exec (decode s.cfg w n) { s with hostQueue := rest } := fun _ _ _ _ hq => step_cons hq
  refine ⟨issued, fun s nbits w i hcfg hw => ?_⟩
  rw [issued (s.withFetchWord nbits w) _ 0 s.hostQueue rfl]
  show exec (decode s.cfg _ 0) s = exec i s
  unfold decodeTableWord at hw
  split at hw
  · rw [hcfg, Option.some.inj hw]
  · cases hw

theorem blankBuffer_pixel {y x : Nat} (hy : y < 144) (hx : x < 160) : blankBuffer[y][x] = .light := by
  simp [blankBuffer]

/-- Settles O9: the assignments of INIT, which blank the buffer. -/
theorem initSetsEveryBlockField : Obligations.InitSetsEveryBlockField :=
  fun s hc hrun => ⟨initialise s, execInit_of_not_faulted hc hrun, rfl, fun _ _ hy hx => blankBuffer_pixel hy hx⟩

/-- Settles O54: INIT assigns every field in which power-on differs from the reset state. -/
theorem resetIsWhatInitLeaves : Obligations.ResetIsWhatInitLeaves := by
  have hready : Ready State.reset := by decide
  refine ⟨execInit_of_not_faulted (s := State.powerOn) hready.1 (.inl rfl), by decide, reset_bus_wf, hready, ?_⟩
  decide

end Sys2Proof.Machine
end

section
/-! The register port (41_register_port.md R141 to R149; 20_memory.md R66): what READ returns and WRITE stores, that
repeating an access adds nothing, and that the port runs no timing. -/

namespace Sys2Proof.Machine

/-- Settles O17: the byte is the line mod 256, and 153 is below that. -/
theorem readScanlineReturnsTheLine : Obligations.ReadScanlineReturnsTheLine := by
  refine fun s hs => ⟨exec_readScanline_of_ready hs, fun hl => ?_⟩
  rw [BitVec.toNat_ofNat, Nat.mod_eq_of_lt (by omega)]

theorem statusBit7_eq (s : State) :
    (s.cfg.statBit7 = .stored → statusBit7 s = s.stat7) ∧ (s.cfg.statBit7 = .readsZero → statusBit7 s = false) ∧
      (s.cfg.statBit7 = .readsOne → statusBit7 s = true) := by
  unfold statusBit7
  cases s.cfg.statBit7 <;> simp

/-- STATUS bit by bit, from bit 0 up (10_state.md R27). -/
def statusBits (s : State) : List Bool :=
  [(modeCode s.mode).getLsbD 0, (modeCode s.mode).getLsbD 1, s.coinc, s.enHblank, s.enVblank, s.enOam, s.enLyc,
    statusBit7 s]

theorem statusValue_getLsbD (s : State) {j : Nat} (hj : j < 8) :
    (statusValue s).getLsbD j = (statusBits s).getD j false := by
  unfold statusValue
  show BitVec.getLsbD (w := 1 + 1 + 1 + 1 + 1 + 1 + 2) _ j = _
  simp only [BitVec.getLsbD_append]
  interval_cases j <;> simp [statusBits]

/-- Settles O18: each bit of the byte is its field; the mode's two bits are its code's. -/
theorem readStatusReturnsEveryField : Obligations.ReadStatusReturnsEveryField := by
  intro s hs
  obtain ⟨stored, readsZero, readsOne⟩ := statusBit7_eq s
  refine ⟨statusValue s, exec_readStatus_of_ready hs, ?_⟩
  iterate 8 rw [statusValue_getLsbD s (by decide)]
  refine ⟨?mode0, ?mode1, rfl, rfl, rfl, rfl, rfl, stored, readsZero, readsOne⟩
  case mode0 => cases hm : s.mode <;> simp [statusBits, hm, modeCode]
  case mode1 => cases hm : s.mode <;> simp [statusBits, hm, modeCode]

/-- Settles O20: `storeStatus` writes the four enables and bit 7, the latter as STAT_BIT7 says. -/
theorem writeStatusStoresTheEnables : Obligations.WriteStatusStoresTheEnables := by
  intro s v hs
  refine ⟨storeStatus v s, exec_writeStatus_of_ready hs v, rfl, fun hstored => ?_, fun hne => ?_⟩ <;>
    rw [storeStatus_stat7, storedBit7]
  · rw [hstored]
  · cases hb : s.cfg.statBit7 with
    | stored => exact absurd hb hne
    | readsZero | readsOne => rfl

/-- Settles O21: the line is 0 after the WRITE, and the block ready for the READ. -/
theorem writeScanlineResetsTheLine : Obligations.WriteScanlineResetsTheLine := by
  intro s v hs
  have written : Ready { s with ly := 0 } := hs
  exact ⟨exec_writeScanline_of_ready hs v, exec_readScanline_of_ready written⟩

theorem storedBit7_storeStatus (v : Byte) (s : State) : storedBit7 v (storeStatus v s) = storedBit7 v s := by
  unfold storedBit7
  rw [storeStatus_cfg, storeStatus_stat7]
  cases hb : s.cfg.statBit7 <;> simp [storedBit7, hb]

theorem storeStatus_storeStatus (v : Byte) (s : State) : storeStatus v (storeStatus v s) = storeStatus v s := by
  have hbit := storedBit7_storeStatus v s
  unfold storeStatus at hbit ⊢
  rw [hbit]

/-- A READ whose byte does not depend on the bytes returned before, repeated. -/
theorem returnByte_twice {value : State → Byte} (hv : ∀ v s, value (returnByte v s) = value s) {s t u : State}
    (ht : t = returnByte (value s) s) (hu : u = returnByte (value t) t) :
    ∃ v, t = { s with returned := s.returned ++ [v] } ∧ u = { s with returned := s.returned ++ [v, v] } := by
  have hbyte : value t = value s := by rw [ht, hv]
  refine ⟨value s, ht, ?_⟩
  rw [hu, hbyte, ht]
  simp [returnByte]

/-- Settles O22: both accesses are in a ready state; the second write stores what is stored, and the second READ's byte
is the first one's. -/
theorem registerAccessesAreIdempotent : Obligations.RegisterAccessesAreIdempotent := by
  intro s t u i hst htu
  have ready : i ≠ .init → Ready s ∧ Ready t := fun hi => ⟨ready_of_exec_next hi hst, ready_of_exec_next hi htu⟩
  constructor
  · rintro ⟨v, rfl | rfl | rfl⟩ <;> obtain ⟨hs, ht⟩ := ready (by simp)
    · cases (exec_writeStatus_of_ready hs v).symm.trans hst
      cases (exec_writeStatus_of_ready ht v).symm.trans htu
      exact storeStatus_storeStatus v s
    · cases (exec_writeScanline_of_ready hs v).symm.trans hst
      cases (exec_writeScanline_of_ready ht v).symm.trans htu
      rfl
    · cases (exec_writeCompare_of_ready hs v).symm.trans hst
      cases (exec_writeCompare_of_ready ht v).symm.trans htu
      rfl
  · rintro (rfl | rfl | rfl) <;> obtain ⟨hs, ht⟩ := ready (by simp)
    · cases (exec_readStatus_of_ready hs).symm.trans hst
      cases (exec_readStatus_of_ready ht).symm.trans htu
      exact returnByte_twice (value := statusValue) (fun _ _ => rfl) rfl rfl
    · cases (exec_readScanline_of_ready hs).symm.trans hst
      cases (exec_readScanline_of_ready ht).symm.trans htu
      exact returnByte_twice (value := scanlineValue) (fun _ _ => rfl) rfl rfl
    · cases (exec_readCompare_of_ready hs).symm.trans hst
      cases (exec_readCompare_of_ready ht).symm.trans htu
      exact returnByte_twice (value := State.lyc) (fun _ _ => rfl) rfl rfl

theorem isInternal_of_isEdge {i : Instr} (h : isEdge i = true) : isInternal i = true := by
  revert h
  cases i <;> simp [isEdge, isInternal]

/-- Settles O23: the operations with a word other than STEP are INIT and the accesses of the port. -/
theorem registerPortRunsNoTiming : Obligations.RegisterPortRunsNoTiming := by
  intro s t i hinternal hstep h
  obtain ⟨rfl, -, rfl⟩ | ⟨-, hrule⟩ := exec_next_cases h
  · exact ⟨rfl, rfl, fun hi => absurd rfl hi⟩
  · rcases hrule with ⟨n, rfl, -, -⟩ | ⟨n, rfl, -, -⟩ | ⟨-, rfl⟩ | ⟨-, rfl⟩ | ⟨-, rfl⟩ | ⟨a, -, rfl⟩ | ⟨v, -, rfl⟩ |
      ⟨v, -, rfl⟩ | ⟨v, -, rfl⟩ | ⟨a, v, -, rfl⟩ | ⟨hedge, -, rfl⟩ | ⟨m, rfl, -⟩ | ⟨rfl, -⟩ | ⟨line, rfl, -⟩ | ⟨rfl, -⟩
    · exact absurd rfl (hstep n)
    · exact absurd rfl (hstep n)
    · simp
    · simp
    · simp
    · simp
    · simp
    · simp
    · simp
    · simp
    · exact absurd (isInternal_of_isEdge hedge) (by simp [hinternal])
    · cases hinternal
    · cases hinternal
    · cases hinternal
    · cases hinternal
end Sys2Proof.Machine
end

section
/-! The six edges of the mode FSM (40_timing_controller.md R103 to R106): the state each leads to, and that at a
threshold exactly one of them is reached. -/

namespace Sys2Proof.Machine

section
variable {s : State}

/-! One edge, by the mode it leaves and its line. -/

theorem advance_of_oam (hm : s.mode = .oam) : advance s = { s with mode := .xfer, acc := s.acc - 80 } := by
  simp [advance, transition, transitionOam, enter, statModeEntry, modeEntryMask, leaveMode, hm, threshold]

theorem advance_of_xfer (hm : s.mode = .xfer) :
    advance s = decodeScanline s.ly (statModeEntry .hblank { s with mode := .hblank, acc := s.acc - 172 }) := by
  simp [advance, transition, transitionXfer, enter, leaveMode, hm, threshold]

theorem advance_of_hblank_ne (hm : s.mode = .hblank) (hl : s.ly ≠ 143) :
    advance s = statModeEntry .oam { s with mode := .oam, ly := s.ly + 1, acc := s.acc - 204 } := by
  simp [advance, transition, transitionHblank, enter, leaveMode, hm, threshold, hl]

theorem advance_of_hblank_last (hm : s.mode = .hblank) (hl : s.ly = 143) :
    advance s = completeFrame (statModeEntry .vblank
      (request .vblank .vblankEntry { s with mode := .vblank, ly := 144, acc := s.acc - 204 })) := by
  simp [advance, transition, transitionHblank, enterVblank, leaveMode, hm, threshold, hl]

theorem advance_of_vblank_lt (hm : s.mode = .vblank) (hl : s.ly < 153) :
    advance s = { s with ly := s.ly + 1, acc := s.acc - 456 } := by
  simp [advance, transition, transitionVblank, leaveMode, hm, threshold, show ¬ 153 < s.ly + 1 by omega]

theorem advance_of_vblank_ge (hm : s.mode = .vblank) (hl : 153 ≤ s.ly) :
    advance s = statModeEntry .oam { s with mode := .oam, ly := 0, acc := s.acc - 456 } := by
  simp [advance, transition, transitionVblank, enter, leaveMode, hm, threshold, show 153 < s.ly + 1 by omega]

end

/-- Settles O24: entering Pixel-Transfer requests nothing. -/
theorem oamEdgeEntersPixelTransfer : Obligations.OamEdgeEntersPixelTransfer := by
  intro s hs hm ha
  rw [exec_of_edge hs ⟨by rw [hm]; exact ha, .inl ⟨rfl, hm⟩⟩, advance_of_oam hm]

/-- Settles O25: the edge is the mode entry, then the decode; neither takes the block out of Running. -/
theorem xferEdgeEntersHblankThenDecodes : Obligations.XferEdgeEntersHblankThenDecodes := by
  intro s hs hm ha
  have edge := exec_of_edge (i := .tXferHblank) hs ⟨by rw [hm]; exact ha, by simp [hm]⟩
  rw [advance_of_xfer hm] at edge
  have entered : Ready { s with mode := .hblank, acc := s.acc - 172 } := hs
  refine ⟨_, _, exec_statModeEntry_of_ready entered _, exec_decodeScanline_of_ready ?_ _, edge, ?_, ?_, ?_⟩
  · simpa [Ready] using entered
  all_goals simp

/-- Settles O26: the edge is the mode entry on the next line. -/
theorem hblankEdgeStartsTheNextLine : Obligations.HblankEdgeStartsTheNextLine := by
  intro s hs hm ha hl
  have edge := exec_of_edge (i := .tHblankOam) hs ⟨by rw [hm]; exact ha, by simp [hm, hl]⟩
  rw [advance_of_hblank_ne hm hl] at edge
  have entered : Ready { s with mode := .oam, ly := s.ly + 1, acc := s.acc - 204 } := hs
  exact ⟨_, exec_statModeEntry_of_ready entered _, edge, by simp, by simp, by simp⟩

/-- Settles O27: the edge requests VBlank, enters the mode and completes the frame. -/
theorem hblankEdgeEntersVblank : Obligations.HblankEdgeEntersVblank := by
  intro s hs hm ha hl
  have edge := exec_of_edge (i := .tHblankVblank) hs ⟨by rw [hm]; exact ha, by simp [hm, hl]⟩
  rw [advance_of_hblank_last hm hl] at edge
  have requested : Ready (request .vblank .vblankEntry { s with mode := .vblank, ly := 144, acc := s.acc - 204 }) := hs
  refine ⟨_, _, exec_statModeEntry_of_ready requested _, exec_completeFrame_of_ready ?_, edge, ?_, ?_, ?_⟩
  · simpa [Ready] using requested
  all_goals simp

/-- Settles O28: below line 153 the edge counts, from it on the edge is the entry of OAM-Scan at line 0. -/
theorem vblankEdgeCountsThenWraps : Obligations.VblankEdgeCountsThenWraps := by
  constructor
  · intro s hs hm ha hl
    rw [exec_of_edge hs ⟨by rw [hm]; exact ha, by simp [hm]; omega⟩, advance_of_vblank_lt hm hl]
  · intro s hs hm ha hl
    have edge := exec_of_edge (i := .tVblankOam) hs ⟨by rw [hm]; exact ha, by simp [hm]; omega⟩
    rw [advance_of_vblank_ge hm hl] at edge
    have entered : Ready { s with mode := .oam, ly := 0, acc := s.acc - 456 } := hs
    exact ⟨_, exec_statModeEntry_of_ready entered _, edge, by simp, by simp, by simp⟩

/-- The edge that a mode and a line lead to. -/
def dueEdge (s : State) : Instr :=
  match s.mode with
  | .oam => .tOamXfer
  | .xfer => .tXferHblank
  | .hblank => if s.ly + 1 = 144 then .tHblankVblank else .tHblankOam
  | .vblank => if s.ly + 1 ≤ 153 then .tVblankLine else .tVblankOam

theorem isEdge_dueEdge (s : State) : isEdge (dueEdge s) = true := by
  unfold dueEdge
  cases s.mode with
  | oam | xfer => rfl
  | hblank | vblank => dsimp only; split <;> rfl

/-- At the threshold that edge is reached, and no other one; below it none is. -/
theorem edgeOf_iff {i : Instr} {s : State} : EdgeOf i s ↔ threshold s.mode ≤ s.acc ∧ i = dueEdge s := by
  refine and_congr_right fun _ => ?_
  unfold dueEdge
  cases s.mode with
  | oam | xfer => simp
  | hblank => by_cases hl : s.ly + 1 = 144 <;> simp [hl]
  | vblank => by_cases hl : s.ly + 1 ≤ 153 <;> simp [hl, Nat.not_lt.mpr, Nat.not_le.mp]

theorem exec_eq_whenReached {i : Instr} {s : State} (hs : Ready s) (hi : isEdge i = true) :
    ∃ reached k, exec i s = whenReached reached s k := by
  cases i <;> cases hi
  case tOamXfer => exact ⟨_, _, by rw [exec, execTOamXfer, whenRunning_of_ready hs]⟩
  case tXferHblank => exact ⟨_, _, by rw [exec, execTXferHblank, whenRunning_of_ready hs]⟩
  case tHblankOam => exact ⟨_, _, by rw [exec, execTHblankOam, whenRunning_of_ready hs]⟩
  case tHblankVblank => exact ⟨_, _, by rw [exec, execTHblankVblank, whenRunning_of_ready hs]⟩
  case tVblankLine => exact ⟨_, _, by rw [exec, execTVblankLine, whenRunning_of_ready hs]⟩
  case tVblankOam => exact ⟨_, _, by rw [exec, execTVblankOam, whenRunning_of_ready hs]⟩

/-- An edge that answers a next state is reached. -/
theorem edgeOf_of_exec_next {i : Instr} {s t : State} (hi : isEdge i = true) (h : exec i s = .next t) : EdgeOf i s := by
  obtain ⟨rfl, -, -⟩ | ⟨-, hrule⟩ := exec_next_cases h
  · cases hi
  · have reached : EdgeOf i s ∧ t = advance s := by
      cases i <;> cases hi <;> simpa [isEdge] using hrule
    exact reached.1

/-- An edge that is not reached is refused. -/
theorem exec_of_not_edgeOf {i : Instr} {s : State} (hs : Ready s) (hi : isEdge i = true) (h : ¬ EdgeOf i s) :
    exec i s = .refused .transitionNotReached := by
  obtain ⟨reached, k, hk⟩ := exec_eq_whenReached hs hi
  cases reached with
  | true => exact absurd (edgeOf_of_exec_next hi hk) h
  | false => exact hk

/-- Settles O29: the one reached edge is an iteration of STEP's loop, and the others are refused; below the threshold
none is reached. -/
theorem exactlyOneEdgeIsDue : Obligations.ExactlyOneEdgeIsDue := by
  intro s hs
  constructor
  · intro hreached
    refine ⟨dueEdge s, _, isEdge_dueEdge s, exec_of_edge hs (edgeOf_iff.mpr ⟨hreached, rfl⟩), fun j hj hne => ?_⟩
    exact exec_of_not_edgeOf hs hj fun h => hne (edgeOf_iff.mp h).2
  · exact fun hbelow j hj => exec_of_not_edgeOf hs hj fun h => absurd h.1 (Nat.not_le.mpr hbelow)

end Sys2Proof.Machine
end

section
/-! The STAT requests and the coincidence flag (40_timing_controller.md R111 to R113), and STEP as edges and one check
(R100, R118). -/

namespace Sys2Proof.Machine

theorem modeEntryMask_iff (m : Mode) (s : State) :
    modeEntryMask m s = true ↔ (m = .hblank ∧ s.enHblank = true) ∨ (m = .vblank ∧ s.enVblank = true) ∨
      (m = .oam ∧ (s.enOam = true ∨ (s.cfg.oamEntryQuirk = true ∧ s.enVblank = true))) := by
  cases m <;> simp [modeEntryMask]

theorem coincides_iff (s : State) : coincides s = true ↔ s.ly % 256 = s.lyc.toNat := by
  rw [coincides, beq_iff_eq, ← BitVec.toNat_inj, scanlineValue, BitVec.toNat_ofNat]

/-- Settles O31: the mask of the mode entry is the enable the statement names. -/
theorem modeEntryRequestsByItsEnable : Obligations.ModeEntryRequestsByItsEnable := by
  intro s m hs enabled
  rw [exec_statModeEntry_of_ready hs]
  refine ⟨fun h => ?_, fun h => ?_⟩ <;> unfold statModeEntry
  · rw [if_pos ((modeEntryMask_iff m s).mpr h)]
    rfl
  · rw [if_neg fun hmask => h ((modeEntryMask_iff m s).mp hmask)]

/-- Settles O32: the test is the comparison of the line mod 256, and its outcome and the enable decide. -/
theorem coincidenceCheckComparesAndRequests : Obligations.CoincidenceCheckComparesAndRequests := by
  intro s hs
  rw [exec_coincidenceCheck_of_ready hs, coincidenceCheck_eq]
  refine ⟨fun h hen => ?_, fun h hen => ?_, fun h => ?_⟩
  · rw [(coincides_iff s).mpr h, hen]
    rfl
  · rw [(coincides_iff s).mpr h, hen]
    rfl
  · rw [Bool.eq_false_iff.mpr (mt (coincides_iff s).mp h)]
    rfl

/-- Settles O34: nothing is added and the loop does not start. -/
theorem stepZeroIsTheCoincidenceCheck : Obligations.StepZeroIsTheCoincidenceCheck := by
  intro s hs hacc
  have hloop : stepCycles 0 s = coincidenceCheck s := congrArg coincidenceCheck (runTransitions_of_lt hacc)
  exact ⟨_, by rw [← hloop]; exact exec_step_of_ready hs 0, exec_coincidenceCheck_of_ready hs⟩

/-- The loop's own recursion: below the threshold it is at its end, at the threshold it goes on after one edge. -/
theorem runTransitions_recursion {P : State → Prop} (done : ∀ s, s.acc < threshold s.mode → P s)
    (edge : ∀ s, threshold s.mode ≤ s.acc → P (advance s) → P s) (s : State) : P s := by
  induction hn : s.acc using Nat.strong_induction_on generalizing s with
  | _ n ih =>
    by_cases h : threshold s.mode ≤ s.acc
    · have := threshold_ge_80 s.mode
      exact edge s h (ih _ (by rw [advance_acc]; omega) _ rfl)
    · exact done s (Nat.not_le.mp h)

/-- The loop as a list of edges, each executed where it is due. -/
theorem exists_edges_runTransitions (s : State) :
    Ready s → ∃ es, (∀ i ∈ es, isEdge i = true) ∧ execAll es s = .next (runTransitions s) := by
  induction s using runTransitions_recursion with
  | done s h => exact fun _ => ⟨[], by simp, by rw [runTransitions_of_lt h]; rfl⟩
  | edge s h ih =>
    intro hs
    obtain ⟨es, hes, hrun⟩ := ih (by simpa [Ready] using hs)
    have hedge : exec (dueEdge s) s = .next (advance s) := exec_of_edge hs (edgeOf_iff.mpr ⟨h, rfl⟩)
    refine ⟨dueEdge s :: es, by simpa [isEdge_dueEdge] using hes, ?_⟩
    rw [execAll, hedge, runTransitions_of_le h]
    exact hrun

/-- Settles O35: the edges are those of the loop, which ends below the threshold. -/
theorem stepIsEdgesThenOneCheck : Obligations.StepIsEdgesThenOneCheck := by
  intro s n hs
  have added : Ready (addCycles n s) := hs
  obtain ⟨es, hes, hrun⟩ := exists_edges_runTransitions (addCycles n s) added
  exact ⟨es, _, _, hes, hrun, runTransitions_acc_lt _, exec_coincidenceCheck_of_ready (by simpa [Ready] using added),
    exec_step_of_ready hs n⟩

end Sys2Proof.Machine
end

section
/-! The position of the block in its frame of 70224 cycles (40_timing_controller.md R116), counted from the start of
line 0, and the invariants of 10_state.md R36. -/

namespace Sys2Proof.Machine

@[simp] theorem addCycles_ly (n : Nat) (s : State) : (addCycles n s).ly = s.ly := rfl
@[simp] theorem addCycles_acc (n : Nat) (s : State) : (addCycles n s).acc = s.acc + n := rfl

/-! STEP ends at the place its loop ends at; the check sets the flag there. -/

@[simp] theorem stepCycles_mode (n : Nat) (s : State) :
    (stepCycles n s).mode = (runTransitions (addCycles n s)).mode := coincidenceCheck_mode _
@[simp] theorem stepCycles_ly (n : Nat) (s : State) :
    (stepCycles n s).ly = (runTransitions (addCycles n s)).ly := coincidenceCheck_ly _
@[simp] theorem stepCycles_acc (n : Nat) (s : State) :
    (stepCycles n s).acc = (runTransitions (addCycles n s)).acc := coincidenceCheck_acc _
@[simp] theorem stepCycles_coinc (n : Nat) (s : State) :
    (stepCycles n s).coinc = coincides (runTransitions (addCycles n s)) := coincidenceCheck_coinc _

/-- INV1 and INV3 of 10_state.md R36. -/
def LineInv (s : State) : Prop := s.ly ≤ 153 ∧ (s.mode ≠ .vblank → s.ly ≤ 143)

/-- Where in a line a mode begins. -/
def modeStart : Mode → Nat
  | .oam => 0
  | .xfer => 80
  | .hblank => 252
  | .vblank => 0

/-- Cycles since the start of line 0. -/
def frameCycle (s : State) : Nat := 456 * s.ly + modeStart s.mode + s.acc

theorem lineInv_advance {s : State} (h : LineInv s) : LineInv (advance s) := by
  obtain ⟨hly, hvis⟩ := h
  unfold LineInv
  rw [advance_ly, advance_mode]
  cases hm : s.mode with
  | oam | xfer => have := hvis (by simp [hm]); simp; omega
  | hblank => have := hvis (by simp [hm]); dsimp only; split <;> simp <;> omega
  | vblank => dsimp only; split <;> simp; omega

theorem lineInv_runTransitions {s : State} (h : LineInv s) : LineInv (runTransitions s) :=
  runTransitions_induction (P := LineInv) (fun _ _ => lineInv_advance) h

/-- An edge of a visible line spends no cycles: it moves them from the accumulator to the position. -/
theorem frameCycle_advance_of_ne_vblank {s : State} (hm : s.mode ≠ .vblank) (ha : threshold s.mode ≤ s.acc) :
    frameCycle (advance s) = frameCycle s := by
  unfold frameCycle
  rw [advance_ly, advance_mode, advance_acc]
  cases hmode : s.mode with
  | vblank => exact absurd hmode hm
  | oam | xfer => simp only [hmode, threshold, modeStart] at ha ⊢; omega
  | hblank =>
    simp only [hmode, threshold, modeStart] at ha ⊢
    by_cases hl : s.ly + 1 = 144
    · rw [if_pos hl]; dsimp only; omega
    · rw [if_neg hl]; dsimp only; omega

/-- So does a line of V-Blank, but for the end of the frame. -/
theorem frameCycle_advance {s : State} (h : LineInv s) (ha : threshold s.mode ≤ s.acc) :
    frameCycle (advance s) % 70224 = frameCycle s % 70224 := by
  by_cases hm : s.mode = .vblank
  · obtain ⟨hly, -⟩ := h
    unfold frameCycle
    rw [advance_ly, advance_mode, advance_acc]
    simp only [hm, threshold, modeStart] at ha ⊢
    by_cases hl : s.ly + 1 ≤ 153
    · rw [if_pos hl, if_pos hl]; dsimp only; omega
    · rw [if_neg hl, if_neg hl]; dsimp only; omega
  · rw [frameCycle_advance_of_ne_vblank hm ha]

/-- Below its threshold a position is less than one frame. -/
theorem frameCycle_lt {s : State} (h : LineInv s) (ha : s.acc < threshold s.mode) : frameCycle s < 70224 := by
  obtain ⟨hly, hvis⟩ := h
  unfold frameCycle
  cases hm : s.mode with
  | vblank => simp only [hm, threshold, modeStart] at ha ⊢; omega
  | oam | xfer | hblank =>
    have := hvis (by simp [hm])
    simp only [hm, threshold, modeStart] at ha ⊢
    omega

/-- The loop ends where the cycles of the frame say. -/
theorem frameCycle_runTransitions {s : State} (h : LineInv s) :
    frameCycle (runTransitions s) = frameCycle s % 70224 := by
  have kept : LineInv (runTransitions s) ∧ frameCycle (runTransitions s) % 70224 = frameCycle s % 70224 :=
    runTransitions_induction (P := fun t => LineInv t ∧ frameCycle t % 70224 = frameCycle s % 70224)
      (fun t ha ⟨ht, hc⟩ => ⟨lineInv_advance ht, (frameCycle_advance ht ha).trans hc⟩) ⟨h, rfl⟩
  rw [← kept.2, Nat.mod_eq_of_lt (frameCycle_lt kept.1 (runTransitions_acc_lt s))]

/-- The line is the position's. -/
theorem ly_eq_frameCycle_div {s : State} (ha : s.acc < threshold s.mode) : s.ly = frameCycle s / 456 := by
  unfold frameCycle
  cases hm : s.mode <;> simp only [hm, threshold, modeStart] at ha ⊢ <;> omega

/-- With no SCANLINE write V-Blank has the lines from 144 on. -/
def OnSchedule (s : State) : Prop := LineInv s ∧ (s.mode = .vblank → 144 ≤ s.ly)

theorem onSchedule_advance {s : State} (h : OnSchedule s) : OnSchedule (advance s) := by
  obtain ⟨hline, hblanking⟩ := h
  refine ⟨lineInv_advance hline, ?_⟩
  rw [advance_ly, advance_mode]
  cases hm : s.mode with
  | oam | xfer => simp
  | hblank => by_cases hl : s.ly + 1 = 144 <;> simp [hl]
  | vblank =>
    have := hblanking hm
    by_cases hl : s.ly + 1 ≤ 153
    · simp only [if_pos hl]; omega
    · simp [hl]

theorem onSchedule_runTransitions {s : State} (h : OnSchedule s) : OnSchedule (runTransitions s) :=
  runTransitions_induction (P := OnSchedule) (fun _ _ => onSchedule_advance) h

/-- Settles O37: the loop ends at the cycle of the frame that the count gives, which lies in the mode the statement
names. -/
theorem visibleLineTakes456Cycles : Obligations.VisibleLineTakes456Cycles := by
  intro s c hs ⟨hm, hacc⟩ hl hc
  have start : OnSchedule (addCycles c s) :=
    ⟨⟨Nat.le_trans hl (by omega), fun _ => hl⟩, fun h => by cases hm.symm.trans h⟩
  have atStart : frameCycle (addCycles c s) = 456 * s.ly + c := by simp [frameCycle, addCycles, hm, hacc, modeStart]
  obtain ⟨⟨hly, hvis⟩, hblanking⟩ := onSchedule_runTransitions start
  have hend := frameCycle_runTransitions start.1
  have hlt := runTransitions_acc_lt (addCycles c s)
  rw [atStart, Nat.mod_eq_of_lt (by omega)] at hend
  refine ⟨_, exec_step_of_ready hs c, ?_⟩
  rw [stepCycles_mode, stepCycles_ly, stepCycles_acc]
  unfold frameCycle at hend
  cases hu : (runTransitions (addCycles c s)).mode with
  | oam =>
    simp only [hu, threshold, modeStart] at hend hlt
    have := hvis (by simp [hu])
    exact ⟨fun _ => ⟨rfl, by omega, by omega⟩, fun _ => by omega, fun _ => by omega,
      fun _ => ⟨(if_neg (by omega)).symm, by omega, by omega⟩⟩
  | xfer =>
    simp only [hu, threshold, modeStart] at hend hlt
    exact ⟨fun _ => by omega, fun _ => ⟨rfl, by omega, by omega⟩, fun _ => by omega, fun _ => by omega⟩
  | hblank =>
    simp only [hu, threshold, modeStart] at hend hlt
    exact ⟨fun _ => by omega, fun _ => by omega, fun _ => ⟨rfl, by omega, by omega⟩, fun _ => by omega⟩
  | vblank =>
    simp only [hu, threshold, modeStart] at hend hlt
    have := hblanking hu
    exact ⟨fun _ => by omega, fun _ => by omega, fun _ => by omega,
      fun _ => ⟨(if_pos (by omega)).symm, by omega, by omega⟩⟩

/-- Settles O41: the loop's end depends on the position alone, and the flag on the line and the compare target. -/
theorem timingDependsOnNothingElse : Obligations.TimingDependsOnNothingElse := by
  intro s s' n hs hs' hm hl ha
  obtain ⟨hm', hl', ha'⟩ := runTransitions_position (s := addCycles n s) (t := addCycles n s') hm hl
    (congrArg (· + n) ha)
  refine ⟨_, _, exec_step_of_ready hs n, exec_step_of_ready hs' n, ?_, ?_, ?_, fun hlyc => ?_⟩
  · simpa using hm'
  · simpa using hl'
  · simpa using ha'
  · have hlyc' : (runTransitions (addCycles n s')).lyc = (runTransitions (addCycles n s)).lyc := by
      simpa [addCycles] using hlyc
    rw [stepCycles_coinc, stepCycles_coinc, coincides, coincides, scanlineValue, scanlineValue, hl', hlyc']

/-- Settles O42: 456 cycles are one line, so the position's line moves by at most one, and line 0 comes after 153. -/
theorem shortStepSkipsNoLine : Obligations.ShortStepSkipsNoLine := by
  intro s n hs hinv hn
  obtain ⟨hly, hacc, hvis⟩ := hinv (by simp [hs.2])
  have start : LineInv (addCycles n s) := ⟨hly, hvis⟩
  have hend := frameCycle_runTransitions start
  have before := ly_eq_frameCycle_div hacc
  have after := ly_eq_frameCycle_div (runTransitions_acc_lt (addCycles n s))
  have added : frameCycle (addCycles n s) = frameCycle s + n := (Nat.add_assoc ..).symm
  have hlt := frameCycle_lt ⟨hly, hvis⟩ hacc
  refine ⟨_, exec_step_of_ready hs n, ?_⟩
  rw [stepCycles_ly]
  split <;> omega

/-- Every operation keeps INV1, INV2 and INV3. INIT sets the position; STEP's loop keeps the line's bounds and ends
below the threshold; below the threshold no edge is reached; a SCANLINE write lowers the line; the rest writes none of
the three. -/
theorem timingInv_of_exec_next {i : Instr} {s t : State} (hinv : TimingInv s) (h : exec i s = .next t) :
    TimingInv t := by
  obtain ⟨-, -, rfl⟩ | ⟨⟨-, hrun⟩, hrule⟩ := exec_next_cases h
  · exact fun _ => by simp [threshold]
  obtain ⟨hly, hacc, hvis⟩ := hinv (by simp [hrun])
  have same : ∀ u : State, u.mode = s.mode → u.ly = s.ly → u.acc = s.acc → TimingInv u := by
    intro u hm hl ha _
    rw [hm, hl, ha]
    exact ⟨hly, hacc, hvis⟩
  rcases hrule with ⟨n, -, -, rfl⟩ | ⟨n, -, -, rfl⟩ | ⟨-, rfl⟩ | ⟨-, rfl⟩ | ⟨-, rfl⟩ | ⟨a, -, rfl⟩ | ⟨v, -, rfl⟩ |
    ⟨v, -, rfl⟩ | ⟨v, -, rfl⟩ | ⟨a, v, -, rfl⟩ | ⟨-, ⟨hedge, -⟩, rfl⟩ | ⟨m, -, rfl⟩ | ⟨-, rfl⟩ | ⟨line, -, rfl⟩ |
    ⟨-, rfl⟩
  · have ended : LineInv (runTransitions (addCycles n.toNat s)) := lineInv_runTransitions ⟨hly, hvis⟩
    have below := runTransitions_acc_lt (addCycles n.toNat s)
    exact fun _ => by simpa using ⟨ended.1, below, ended.2⟩
  · exact same _ rfl rfl rfl
  · exact same _ rfl rfl rfl
  · exact same _ rfl rfl rfl
  · exact same _ rfl rfl rfl
  · exact same _ rfl rfl rfl
  · exact same _ rfl rfl rfl
  · exact fun _ => ⟨Nat.zero_le _, hacc, fun _ => Nat.zero_le _⟩
  · exact same _ rfl rfl rfl
  · exact same _ rfl rfl rfl
  · exact absurd hedge (Nat.not_le.mpr hacc)
  · exact same _ (by simp) (by simp) (by simp)
  · exact same _ (by simp) (by simp) (by simp)
  · exact same _ (by simp) (by simp) (by simp)
  · exact same _ rfl rfl rfl

/-- Settles O52: an idle step changes nothing, a host action the bus alone, and a transaction keeps the invariants. -/
theorem stepKeepsTheTimingInvariants : Obligations.StepKeepsTheTimingInvariants := by
  intro s t hinv h
  cases hq : s.hostQueue with
  | nil =>
    rw [step_nil hq] at h
    rwa [idle_next h]
  | cons m rest =>
    rw [step_cons hq] at h
    have taken : TimingInv { s with hostQueue := rest } := hinv
    cases m with
    | issue w n => exact timingInv_of_exec_next taken h
    | busWrite a v | busFill a len v | clearIf => cases h; exact taken

end Sys2Proof.Machine
end

section
/-! The bus (20_memory.md R53, R55): the host's moves write the bytes they name, and an operation reaches the bus by
interrupt requests alone, so what every request keeps every operation keeps. -/

namespace Sys2Proof.Machine

/-- A read after a fill: the filled addresses are `len` from `a` up, mod 65536. -/
theorem Memory.read_fill {m : Memory} (hm : m.wf) (a : Address) (len : Nat) (v : Byte) (b : Address) :
    (m.fill a len v).read b = if (b - a).toNat < len then v else m.read b := by
  induction len generalizing m a with
  | zero => rfl
  | succ len ih =>
    show ((m.write a v).fill (a + 1) len v).read b = _
    rw [ih (Memory.write_wf hm a v)]
    by_cases hb : b = a
    · subst hb
      rw [Memory.read_write_same hm, ite_self, BitVec.sub_self, if_pos (by simp)]
    · have hnext : (b - a).toNat = (b - (a + 1)).toNat + 1 := by bv_omega
      simp only [hnext, Nat.add_lt_add_iff_right, Memory.read_write_other m v hb]

/-- Settles O7: each move is one write or one fill of the bus. -/
theorem hostActionsWriteOnlyTheirBytes : Obligations.HostActionsWriteOnlyTheirBytes := by
  intro s rest hwf
  refine ⟨fun a v hq => ?write, fun a len v hq => ?fill, fun hq => ?clear⟩
  case write =>
    refine ⟨_, step_cons hq, rfl, fun b => ?_⟩
    split
    next hb => rw [hb]; exact Memory.read_write_same hwf a v
    next hb => exact Memory.read_write_other s.bus v hb
  case fill => exact ⟨_, step_cons hq, rfl, Memory.read_fill hwf a len v⟩
  case clear =>
    refine ⟨_, step_cons hq, rfl, fun b => ?_⟩
    split
    next hb => rw [hb]; exact Memory.read_write_same hwf s.cfg.ifAddr 0
    next hb => exact Memory.read_write_other s.bus 0 hb

/-- Whatever interrupt is requested, under these parameters the bus keeps `P`. -/
def KeptByRequests (cfg : Config) (P : Memory → Prop) : Prop :=
  ∀ (s : State) (line : IrqLine) (cause : Cause), s.cfg = cfg → P s.bus → P (request line cause s).bus

namespace KeptByRequests

variable {P : Memory → Prop} {s : State}

theorem statModeEntry (hP : KeptByRequests s.cfg P) (m : Mode) (h : P s.bus) : P (statModeEntry m s).bus := by
  unfold Machine.statModeEntry
  split
  · exact hP s _ _ rfl h
  · exact h

theorem enter (hP : KeptByRequests s.cfg P) (m : Mode) (h : P s.bus) : P (enter m s).bus :=
  statModeEntry (s := { s with mode := m }) hP m h

theorem enterVblank (hP : KeptByRequests s.cfg P) (h : P s.bus) : P (enterVblank s).bus :=
  statModeEntry (s := request .vblank .vblankEntry { s with mode := .vblank }) hP .vblank
    (hP { s with mode := .vblank } _ _ rfl h)

theorem coincidenceCheck (hP : KeptByRequests s.cfg P) (h : P s.bus) : P (coincidenceCheck s).bus := by
  rw [coincidenceCheck_eq]
  split
  · exact hP { s with coinc := coincides s } _ _ rfl h
  · exact h

theorem advance (hP : KeptByRequests s.cfg P) (h : P s.bus) : P (advance s).bus := by
  rcases advance_cases s with ⟨-, h'⟩ | ⟨-, h'⟩ | ⟨-, -, h'⟩ | ⟨-, -, h'⟩ | ⟨-, -, h'⟩ | ⟨-, -, h'⟩ <;> rw [h']
  · exact enter (s := leaveMode s) hP .xfer h
  · rw [decodeScanline_bus]
    exact enter (s := leaveMode s) hP .hblank h
  · exact enterVblank (s := { leaveMode s with ly := 144 }) hP h
  · exact enter (s := { leaveMode s with ly := s.ly + 1 }) hP .oam h
  · exact h
  · exact enter (s := { leaveMode s with ly := 0 }) hP .oam h

theorem stepCycles (hP : KeptByRequests s.cfg P) (n : Nat) (h : P s.bus) : P (stepCycles n s).bus := by
  obtain ⟨hcfg, hbus⟩ : (runTransitions (addCycles n s)).cfg = s.cfg ∧ P (runTransitions (addCycles n s)).bus :=
    runTransitions_induction (P := fun t => t.cfg = s.cfg ∧ P t.bus)
      (fun t _ ⟨hcfg, hbus⟩ => ⟨(advance_cfg t).trans hcfg, advance (by rwa [hcfg]) hbus⟩) ⟨rfl, h⟩
  exact coincidenceCheck (s := runTransitions (addCycles n s)) (by rwa [hcfg]) hbus

/-- So every operation that goes on keeps it. -/
theorem exec {t : State} {i : Instr} (hP : KeptByRequests s.cfg P) (h : P s.bus) (hi : exec i s = .next t) :
    P t.bus := by
  obtain ⟨-, -, rfl⟩ | ⟨-, hrule⟩ := exec_next_cases hi
  · exact h
  · rcases hrule with ⟨n, -, -, rfl⟩ | ⟨n, -, -, rfl⟩ | ⟨-, rfl⟩ | ⟨-, rfl⟩ | ⟨-, rfl⟩ | ⟨a, -, rfl⟩ | ⟨v, -, rfl⟩ |
      ⟨v, -, rfl⟩ | ⟨v, -, rfl⟩ | ⟨a, v, -, rfl⟩ | ⟨-, -, rfl⟩ | ⟨m, -, rfl⟩ | ⟨-, rfl⟩ | ⟨line, -, rfl⟩ | ⟨-, rfl⟩
    · exact stepCycles hP n.toNat h
    · exact h
    · exact h
    · exact h
    · exact h
    · exact h
    · exact h
    · exact h
    · exact h
    · exact h
    · exact advance hP h
    · exact statModeEntry hP m h
    · exact coincidenceCheck hP h
    · rwa [decodeScanline_bus]
    · exact h

end KeptByRequests

/-- Settles O53: the host's writes and fills keep the canonical form, and so does every request. -/
theorem stepKeepsTheBusCanonical : Obligations.StepKeepsTheBusCanonical := by
  intro s t hwf h
  cases hq : s.hostQueue with
  | nil =>
    rw [step_nil hq] at h
    rwa [idle_next h]
  | cons m rest =>
    rw [step_cons hq] at h
    cases m with
    | issue w n =>
      exact KeptByRequests.exec (s := { s with hostQueue := rest }) (P := Memory.wf)
        (fun _ _ _ _ => ifSet_bus_wf _) hwf h
    | busWrite a v => cases h; exact Memory.write_wf hwf a v
    | busFill a len v => cases h; exact Memory.fill_wf hwf a len v
    | clearIf => cases h; exact Memory.write_wf hwf s.cfg.ifAddr 0

/-- The bus differs from `b₀` at IF alone, where bits were set, and only bits of the two lines. -/
def OnlyRequestBits (cfg : Config) (b₀ b : Memory) : Prop :=
  (∀ a, a ≠ cfg.ifAddr → b.read a = b₀.read a) ∧
  (∀ j, (b₀.read cfg.ifAddr).getLsbD j = true → (b.read cfg.ifAddr).getLsbD j = true) ∧
  (∀ j, j ≠ cfg.ifVblankBit.val → j ≠ cfg.ifStatBit.val →
    (b.read cfg.ifAddr).getLsbD j = (b₀.read cfg.ifAddr).getLsbD j)

theorem onlyRequestBits_keptByRequests (cfg : Config) (b₀ : Memory) :
    KeptByRequests cfg (OnlyRequestBits cfg b₀) := by
  rintro s line cause rfl ⟨others, set, kept⟩
  refine ⟨fun a ha => ?_, fun j hj => ?_, fun j hv hs => ?_⟩
  · rw [request_read_other line cause s ha, others a ha]
  · rw [request_ifAddr_getLsbD, set j hj, Bool.true_or]
  · have hbit : j ≠ (irqBit s.cfg line).val := by cases line <;> assumption
    rw [request_ifAddr_getLsbD, decide_eq_false hbit, Bool.or_false, kept j hv hs]

/-- Settles O55: each request sets one of the two bits of IF, and nothing else reaches the bus. -/
theorem onlyRequestBitsOfIfChange : Obligations.OnlyRequestBitsOfIfChange :=
  fun s _ _ h => (onlyRequestBits_keptByRequests s.cfg s.bus).exec
    ⟨fun _ _ => rfl, fun _ hj => hj, fun _ _ _ => rfl⟩ h

end Sys2Proof.Machine
end

section
/-! The writers of each field (10_state.md R21 to R32; 41_register_port.md R145). -/

namespace Sys2Proof.Machine

@[simp] theorem stepCycles_enHblank (n : Nat) (s : State) : (stepCycles n s).enHblank = s.enHblank := by
  simp [stepCycles_eq]
@[simp] theorem stepCycles_enVblank (n : Nat) (s : State) : (stepCycles n s).enVblank = s.enVblank := by
  simp [stepCycles_eq]
@[simp] theorem stepCycles_enOam (n : Nat) (s : State) : (stepCycles n s).enOam = s.enOam := by
  simp [stepCycles_eq]
@[simp] theorem stepCycles_enLyc (n : Nat) (s : State) : (stepCycles n s).enLyc = s.enLyc := by
  simp [stepCycles_eq]
@[simp] theorem stepCycles_stat7 (n : Nat) (s : State) : (stepCycles n s).stat7 = s.stat7 := by
  simp [stepCycles_eq]
@[simp] theorem stepCycles_lyc (n : Nat) (s : State) : (stepCycles n s).lyc = s.lyc := by
  simp [stepCycles_eq]
@[simp] theorem stepCycles_hostQueue (n : Nat) (s : State) : (stepCycles n s).hostQueue = s.hostQueue := by
  simp [stepCycles_eq]
@[simp] theorem stepCycles_cfg (n : Nat) (s : State) : (stepCycles n s).cfg = s.cfg := by
  simp [stepCycles_eq]

/-- Of the edges one alone decodes a line. -/
theorem advance_buf_of_ne_xfer {s : State} (hm : s.mode ≠ .xfer) : (advance s).buf = s.buf := by
  rcases advance_cases s with ⟨-, h⟩ | ⟨h, -⟩ | ⟨-, -, h⟩ | ⟨-, -, h⟩ | ⟨-, -, h⟩ | ⟨-, -, h⟩
  case inr.inl => exact absurd h hm
  all_goals simp [h]

theorem eq_tXferHblank_of_edgeOf {i : Instr} {s : State} (h : EdgeOf i s) (hb : (advance s).buf ≠ s.buf) :
    i = .tXferHblank := by
  have hm : s.mode = .xfer := by
    by_contra hm
    exact hb (advance_buf_of_ne_xfer hm)
  rw [(edgeOf_iff.mp h).2, dueEdge, hm]

/-- Settles O56: operation by operation, a field that is not the operation's to write is kept. -/
theorem eachFieldHasOnlyItsWriters : Obligations.EachFieldHasOnlyItsWriters := by
  intro s t i h timing
  obtain ⟨rfl, -, rfl⟩ | ⟨⟨-, hrun⟩, hrule⟩ := exec_next_cases h
  · exact ⟨fun _ => .inl rfl, fun _ => .inl rfl, fun _ => .inl (.inl rfl), fun _ => .inl rfl, fun _ => .inl rfl,
      fun _ => .inl rfl, fun _ => .inl rfl, fun hr => absurd rfl hr, rfl, rfl,
      Run.noConfusion⟩
  · rcases hrule with ⟨n, rfl, -, rfl⟩ | ⟨n, -, -, rfl⟩ | ⟨rfl, rfl⟩ | ⟨rfl, rfl⟩ | ⟨rfl, rfl⟩ | ⟨a, -, rfl⟩ |
      ⟨v, rfl, rfl⟩ | ⟨v, rfl, rfl⟩ | ⟨v, rfl, rfl⟩ | ⟨a, v, -, rfl⟩ | ⟨hedge, hreached, rfl⟩ | ⟨m, -, rfl⟩ |
      ⟨rfl, rfl⟩ | ⟨line, rfl, rfl⟩ | ⟨-, rfl⟩
    · simp [timing, hrun]
    · simp
    · simp [hrun]
    · simp [hrun]
    · simp [hrun]
    · simp
    · simp [hrun]
    · simp [hrun]
    · simp [hrun]
    · simp
    · have hbuf : (advance s).buf ≠ s.buf → i = .tXferHblank := eq_tXferHblank_of_edgeOf hreached
      simpa [timing, hedge, hrun] using fun hb => .inr (.inr (.inl (hbuf hb)))
    · simp [hrun]
    · simp [hrun]
    · simp [hrun]
    · simp [hrun]

end Sys2Proof.Machine
end

section
/-! The renderer (42_renderer.md R160 to R168): the row a decode draws, the rows it leaves, its reads in order, and a
frame as flat data (43_frame_emission.md R182). -/

namespace Sys2Proof.Machine

theorem decodeScanline_of_ge {line : Nat} (hl : 144 ≤ line) (s : State) : decodeScanline line s = s := by
  rw [decodeScanline, dif_neg (by omega)]

theorem decodeScanline_frame (line : Nat) (s : State) :
    decodeScanline line s =
      { s with buf := (decodeScanline line s).buf, trace := (decodeScanline line s).trace } := by
  unfold decodeScanline
  split
  · split <;> rfl
  · rfl

theorem decodeScanline_trace_of_lt {line : Nat} (hl : line < 144) (s : State) :
    (decodeScanline line s).trace = s.trace ++ lineReads s.cfg s.bus line := by
  rw [decodeScanline, dif_pos hl]
  split <;> rfl

/-- Only line 0 clears: any other decode keeps the other rows. -/
theorem decodeScanline_row_of_ne {line y : Nat} (h0 : line ≠ 0) (hy : y < 144) (hne : y ≠ line) (s : State) :
    (decodeScanline line s).buf[y] = s.buf[y] := by
  by_cases hl : line < 144
  · simpa only [if_neg h0] using decodeScanline_other_row hl hy hne s
  · rw [decodeScanline_of_ge (Nat.not_lt.mp hl)]

/-- Settles O47: there is no row for the line. -/
theorem decodeOfABlankingLineDoesNothing : Obligations.DecodeOfABlankingLineDoesNothing := by
  intro s line hs hl
  rw [exec_decodeScanline_of_ready hs, decodeScanline_of_ge hl]

/-- Settles O44: the row is the line's pixels, and those are the background's under the RESOLVE the spec admits. -/
theorem decodeRendersTheBackground : Obligations.DecodeRendersTheBackground := by
  intro s line hl hs
  refine ⟨_, exec_decodeScanline_of_ready hs line, decodeScanline_frame line s, fun x hx => ?_⟩
  rw [decodeScanline_pixel hl hx, linePixel_eq (resolve_of_admitted hs.1)]

/-- Column `col` of slot `slot` comes from that slot's two plane bytes. -/
theorem linePixel_slot (cfg : Config) (bus : Memory) (line slot : Nat) {col : Nat} (hc : col < 8) :
    linePixel cfg bus line (slot * 8 + col) =
      unpack cfg (fetchSlot cfg bus (backgroundRow line (scrollY cfg bus)) slot).p0
        (fetchSlot cfg bus (backgroundRow line (scrollY cfg bus)) slot).p1 col := by
  rw [linePixel, show (slot * 8 + col) / 8 = slot by omega, show (slot * 8 + col) % 8 = col by omega]

/-- Settles O45: the column's pixel is unpacked from its slot's fetch, and only line 0 touches another row. -/
theorem decodeOverwritesExactlyOneRow : Obligations.DecodeOverwritesExactlyOneRow := by
  intro s line hl hs
  refine ⟨_, exec_decodeScanline_of_ready hs line, fun slot col hslot hcol => ⟨_, _, ⟨rfl, rfl⟩, ?_⟩,
    fun h0 y hy hne => decodeScanline_row_of_ne h0 hy hne s⟩
  rw [decodeScanline_pixel hl (by omega), linePixel_slot _ _ _ _ hcol]
  rfl

/-- Settles O46: line 0 is drawn on the blank buffer, whatever the buffer held. -/
theorem lineZeroClearsTheBuffer : Obligations.LineZeroClearsTheBuffer := by
  constructor
  · intro s buf' hs
    have other : Ready { s with buf := buf' } := hs
    refine ⟨_, _, exec_decodeScanline_of_ready hs 0, exec_decodeScanline_of_ready other 0, ?_, fun y x hy hx h1 => ?_⟩
    · rw [decodeScanline_buf_of_lt (by omega), decodeScanline_buf_of_lt (by omega), if_pos rfl, if_pos rfl]
    · have row : (decodeScanline 0 s).buf[y] = blankBuffer[y] := decodeScanline_other_row (by omega) hy (by omega) s
      rw [row, blankBuffer_pixel hy hx]
  · intro s line hs h0
    exact ⟨_, exec_decodeScanline_of_ready hs line, fun y hy hne => decodeScanline_row_of_ne h0 hy hne s⟩

/-- Indexing a concatenation of blocks of one length. -/
theorem getElem?_flatMap_of_length {α β : Type} {f : α → List β} {c : Nat} (hf : ∀ a, (f a).length = c) (l : List α)
    (k : Nat) {j : Nat} (hj : j < c) : (l.flatMap f)[c * k + j]? = l[k]?.bind fun a => (f a)[j]? := by
  induction l generalizing k with
  | nil => simp
  | cons a l ih =>
    rw [List.flatMap_cons]
    cases k with
    | zero => simp [List.getElem?_append_left, hf, hj]
    | succ k =>
      rw [List.getElem?_append_right (by rw [hf, Nat.mul_succ]; omega), hf,
        show c * (k + 1) + j - c = c * k + j by rw [Nat.mul_succ]; omega, ih]
      rfl

/-- The three addresses a slot reads, in order. -/
def slotAddrs (f : SlotFetch) : List Address := [f.mapAt, f.tileAt, f.tileAt + 1]

theorem length_slotAddrs (f : SlotFetch) : (slotAddrs f).length = 3 := rfl

/-- The addresses a decode reads, in order (42_renderer.md R167). -/
def lineAddrs (cfg : Config) (bus : Memory) (line : Nat) : List Address :=
  cfg.scrollYAddr ::
    (List.range 20).flatMap fun slot => slotAddrs (fetchSlot cfg bus (backgroundRow line (scrollY cfg bus)) slot)

/-- Each is traced with the byte the bus holds. -/
theorem lineReads_eq_map (cfg : Config) (bus : Memory) (line : Nat) :
    lineReads cfg bus line = (lineAddrs cfg bus line).map fun a => .busRd a (bus.read a) := by
  rw [lineAddrs, List.map_cons, List.map_flatMap]
  rfl

theorem lineAddrs_getElem? (cfg : Config) (bus : Memory) (line : Nat) {slot j : Nat} (hs : slot < 20) (hj : j < 3) :
    (lineAddrs cfg bus line)[3 * slot + j + 1]? =
      (slotAddrs (fetchSlot cfg bus (backgroundRow line (scrollY cfg bus)) slot))[j]? := by
  rw [lineAddrs, List.getElem?_cons_succ, getElem?_flatMap_of_length (fun _ => length_slotAddrs _) _ _ hj,
    List.getElem?_range hs]
  rfl

/-- Settles O48: the reads are those of the listed addresses, SCROLL-Y and then a block of three for each slot. -/
theorem decodeReadsInOrder : Obligations.DecodeReadsInOrder := by
  intro s line hs hl
  refine ⟨_, lineAddrs s.cfg s.bus line, exec_decodeScanline_of_ready hs line, ?_, rfl, rfl, fun slot hslot => ?_⟩
  · rw [decodeScanline_trace_of_lt hl, lineReads_eq_map]
  · exact ⟨lineAddrs_getElem? _ _ _ hslot (j := 0) (by omega), lineAddrs_getElem? _ _ _ hslot (j := 1) (by omega),
      lineAddrs_getElem? _ _ _ hslot (j := 2) (by omega)⟩

theorem pixelCode_eq_ite (p : Pixel) : pixelCode p = if p = .dark then 1 else 0 := by
  cases p <;> rfl

/-- Settles O51: the payload is 144 blocks of 160 codes. -/
theorem framePayloadIsRowMajor : Obligations.FramePayloadIsRowMajor := by
  intro f
  have blocks : ∀ row : Line, (row.toList.map pixelCode).length = 160 := by simp
  refine ⟨?_, fun y x hy hx => ?_⟩
  · simp [framePayload, List.length_flatMap]
  · rw [framePayload, getElem?_flatMap_of_length blocks _ _ hx]
    simp [hy, hx, pixelCode_eq_ite]

/-- Settles O49: bit 7 of the byte read decides whether the frame's event follows. -/
theorem completeFrameEmitsWhenEnabled : Obligations.CompleteFrameEmitsWhenEnabled := by
  rintro s ctl hs rfl
  rw [exec_completeFrame_of_ready hs]
  refine ⟨fun hbit => ?_, fun hbit => ?_⟩
  · rw [completeFrame, displayEnabled, if_pos hbit]
    rfl
  · rw [completeFrame, displayEnabled, if_neg (Bool.eq_false_iff.mp hbit)]
    rfl

end Sys2Proof.Machine
end

section
/-! The trace of STEP's loop: what an edge traces besides the STAT requests of mode entries (42_renderer.md R167;
43_frame_emission.md R180; 60_exceptions.md R211). -/

namespace Sys2Proof.Machine

/-- What complete_frame traces. -/
def frameEvents (s : State) : List Event :=
  busRdEvent s s.cfg.controlAddr :: if displayEnabled s then [.frameReady s.buf] else []

theorem frameEvents_congr {s t : State} (hc : t.cfg = s.cfg) (hbuf : t.buf = s.buf)
    (hb : t.bus.read s.cfg.controlAddr = s.bus.read s.cfg.controlAddr) : frameEvents t = frameEvents s := by
  rw [frameEvents, frameEvents, displayEnabled_congr hc hb, busRdEvent, busRdEvent, hc, hb, hbuf]

/-- The reads of a decoded line; the VBlank request, and what complete_frame traces, at the entry to V-Blank. -/
def edgeEvents (s : State) : List Event :=
  match s.mode with
  | .oam => []
  | .xfer => if s.ly < 144 then lineReads s.cfg s.bus s.ly else []
  | .hblank => if s.ly = 143 then .irqReq .vblank .vblankEntry :: frameEvents s else []
  | .vblank => []

/-- IF is no byte that the edges read (20_memory.md R54), so the requests before a read do not change what it traces. -/
theorem filter_trace_advance {f : Event → Bool} (hf : ∀ m, f (.irqReq .stat (.modeEntry m)) = false) {s : State}
    (hc : configAdmitted s.cfg = true) :
    (advance s).trace.filter f = s.trace.filter f ++ (edgeEvents s).filter f := by
  obtain ⟨hunread, hcontrol⟩ := ifAddr_unread hc
  unfold edgeEvents
  cases hm : s.mode with
  | oam => simp [advance_of_oam hm]
  | xfer =>
    rw [advance_of_xfer hm]
    by_cases hl : s.ly < 144
    · have hreads := lineReads_congr hunread (fun x hx => statModeEntry_read_other
        (s := { s with mode := .hblank, acc := s.acc - 172 }) .hblank hx) s.ly
      rw [decodeScanline_trace_of_lt hl, statModeEntry_cfg, hreads, List.filter_append, filter_trace_statModeEntry hf]
      simp [hl]
    · rw [decodeScanline_of_ge (Nat.not_lt.mp hl), filter_trace_statModeEntry hf]
      simp [hl]
  | hblank =>
    by_cases hl : s.ly = 143
    · have hframe : frameEvents (statModeEntry .vblank (request .vblank .vblankEntry
          { s with mode := .vblank, ly := 144, acc := s.acc - 204 })) = frameEvents s :=
        frameEvents_congr (by simp) (by simp)
          (by rw [← completeFrame_bus, ← advance_of_hblank_last hm hl, advance_read_other hcontrol])
      rw [advance_of_hblank_last hm hl, completeFrame_trace, ← frameEvents, hframe, List.filter_append,
        filter_trace_statModeEntry hf, request_trace, List.filter_append, List.append_assoc, ← List.filter_append,
        if_pos hl]
      rfl
    · rw [advance_of_hblank_ne hm hl, filter_trace_statModeEntry hf]
      simp [hl]
  | vblank =>
    by_cases hl : s.ly < 153
    · simp [advance_of_vblank_lt hm hl]
    · rw [advance_of_vblank_ge hm (Nat.not_lt.mp hl), filter_trace_statModeEntry hf]
      simp

theorem filter_lineReads_eq_nil {f : Event → Bool} (hf : ∀ a v, f (.busRd a v) = false) (cfg : Config) (bus : Memory)
    (line : Nat) : (lineReads cfg bus line).filter f = [] := by
  rw [List.filter_eq_nil_iff]
  intro e he
  obtain ⟨a, v, rfl⟩ := busRd_of_mem_lineReads he
  simp [hf]

theorem filter_isBusRead_lineReads (cfg : Config) (bus : Memory) (line : Nat) :
    (lineReads cfg bus line).filter isBusRead = lineReads cfg bus line := by
  rw [List.filter_eq_self]
  intro e he
  obtain ⟨a, v, rfl⟩ := busRd_of_mem_lineReads he
  rfl

/-- No edge makes a coincidence request. -/
theorem coincidences_edgeEvents (s : State) : (edgeEvents s).filter isCoincidence = [] := by
  unfold edgeEvents
  cases s.mode with
  | oam | vblank => rfl
  | xfer => dsimp only; split <;> [exact filter_lineReads_eq_nil (fun _ _ => rfl) ..; rfl]
  | hblank => dsimp only [frameEvents]; split <;> [(split <;> rfl); rfl]

theorem coincidences_runTransitions {s : State} (hc : configAdmitted s.cfg = true) :
    (runTransitions s).trace.filter isCoincidence = s.trace.filter isCoincidence :=
  (runTransitions_induction
    (P := fun t => configAdmitted t.cfg = true ∧ t.trace.filter isCoincidence = s.trace.filter isCoincidence)
    (fun t _ ⟨hct, ht⟩ => ⟨by rwa [advance_cfg], by
      rw [filter_trace_advance (fun _ => rfl) hct, coincidences_edgeEvents, List.append_nil, ht]⟩)
    ⟨hc, rfl⟩).2

/-- Settles O33: the loop keeps the line at most 153 and makes no coincidence request, so the one check after it finds
no match. -/
theorem compareAboveLastLineNeverCoincides : Obligations.CompareAboveLastLineNeverCoincides := by
  intro s n hs hly hvis hlyc
  obtain ⟨hend, -⟩ : LineInv (runTransitions (addCycles n s)) := lineInv_runTransitions ⟨hly, hvis⟩
  have hkept : (runTransitions (addCycles n s)).lyc = s.lyc := runTransitions_lyc _
  have differs : coincides (runTransitions (addCycles n s)) = false := by
    rw [Bool.eq_false_iff, ne_eq, coincides_iff, hkept]
    omega
  refine ⟨_, exec_step_of_ready hs n, by rw [stepCycles_coinc, differs], ?_⟩
  have check : stepCycles n s = { runTransitions (addCycles n s) with coinc := false } := by
    show coincidenceCheck (runTransitions (addCycles n s)) = _
    rw [coincidenceCheck_eq, differs]
    rfl
  rw [check]
  exact coincidences_runTransitions (s := addCycles n s) hs.1

end Sys2Proof.Machine
end

section
/-! A frame (40_timing_controller.md R116; 43_frame_emission.md R184, R185): the 144 visible lines edge by edge, then
the lines of V-Blank. -/

namespace Sys2Proof.Machine

/-- On the way from `s` to the start of V-Blank, 65664 cycles after the start of line 0. -/
structure ToVblank (s t : State) : Prop where
  cfg_eq   : t.cfg = s.cfg
  read_eq  : ∀ x, x ≠ s.cfg.ifAddr → t.bus.read x = s.bus.read x
  schedule : OnSchedule t
  cycle    : frameCycle t = 65664

namespace ToVblank

variable {s t : State}

/-- At the start of V-Blank no cycles are left. -/
theorem acc_eq_zero (h : ToVblank s t) (hm : t.mode = .vblank) : t.ly = 144 ∧ t.acc = 0 := by
  have hly := h.schedule.2 hm
  have hcycle := h.cycle
  rw [frameCycle, hm, modeStart] at hcycle
  omega

theorem mode_ne_vblank (h : ToVblank s t) (ha : threshold t.mode ≤ t.acc) : t.mode ≠ .vblank := by
  intro hm
  obtain ⟨-, hacc⟩ := h.acc_eq_zero hm
  have := threshold_ge_80 t.mode
  omega

theorem advance (h : ToVblank s t) (ha : threshold t.mode ≤ t.acc) : ToVblank s (advance t) where
  cfg_eq := (advance_cfg t).trans h.cfg_eq
  read_eq x hx := (advance_read_other (by rwa [h.cfg_eq])).trans (h.read_eq x hx)
  schedule := onSchedule_advance h.schedule
  cycle := (frameCycle_advance_of_ne_vblank (h.mode_ne_vblank ha) ha).trans h.cycle

/-- Below its threshold it has arrived. -/
theorem arrived (h : ToVblank s t) (ha : t.acc < threshold t.mode) : t.mode = .vblank ∧ t.ly = 144 ∧ t.acc = 0 := by
  by_cases hm : t.mode = .vblank
  · exact ⟨hm, h.acc_eq_zero hm⟩
  · have hly := h.schedule.1.2 hm
    have hcycle := h.cycle
    rw [frameCycle] at hcycle
    cases hmode : t.mode <;> simp only [hmode, threshold, modeStart] at ha hcycle <;> omega

end ToVblank

/-- How many lines of the frame are drawn. -/
def linesDrawn (t : State) : Nat :=
  match t.mode with
  | .oam => t.ly
  | .xfer => t.ly
  | .hblank => t.ly + 1
  | .vblank => t.ly

/-- The frame that the bus of `s` gives, as far as it is drawn in `t`, and the events of drawing it. -/
structure Drawing (s t : State) : Prop extends ToVblank s t where
  rows     : ∀ y (hy : y < 144), y < linesDrawn t → t.buf[y] = linePixels s.cfg s.bus y
  reads    : (t.trace.filter isBusRead).length =
    (s.trace.filter isBusRead).length + 61 * linesDrawn t + if t.mode = .vblank then 1 else 0
  requests : t.trace.filter isVblankRequest =
    s.trace.filter isVblankRequest ++ if t.mode = .vblank then [.irqReq .vblank .vblankEntry] else []
  frames   : t.trace.filter isFrame =
    s.trace.filter isFrame ++ if t.mode = .vblank ∧ displayEnabled s = true then [.frameReady t.buf] else []

theorem drawing_of_lineStart {s : State} (hs : LineStart s) (hl : s.ly = 0) : Drawing s (addCycles 65664 s) := by
  obtain ⟨hm, hacc⟩ := hs
  have lines : linesDrawn (addCycles 65664 s) = 0 := by simp [linesDrawn, addCycles, hm, hl]
  have visible : (addCycles 65664 s).mode ≠ .vblank := by simp [addCycles, hm]
  refine ⟨⟨rfl, fun _ _ => rfl, ⟨⟨?_, fun _ => ?_⟩, fun h => absurd h visible⟩, ?_⟩, ?_, ?_, ?_, ?_⟩
  · simp [addCycles, hl]
  · simp [addCycles, hl]
  · simp [frameCycle, addCycles, hm, hl, hacc, modeStart]
  · simp [lines]
  · simp [lines, visible]; rfl
  · simp [visible]; rfl
  · simp [visible]; rfl

theorem linesDrawn_advance {t : State} (hm : t.mode ≠ .vblank) :
    linesDrawn (advance t) = linesDrawn t + if t.mode = .xfer then 1 else 0 := by
  unfold linesDrawn
  rw [advance_ly, advance_mode]
  cases hmode : t.mode with
  | vblank => exact absurd hmode hm
  | oam | xfer => simp
  | hblank => by_cases hl : t.ly + 1 = 144 <;> simp [hl]

theorem advance_entersVblank_iff {t : State} (hm : t.mode ≠ .vblank) :
    (advance t).mode = .vblank ↔ t.mode = .hblank ∧ t.ly = 143 := by
  rw [advance_mode]
  cases hmode : t.mode with
  | vblank => exact absurd hmode hm
  | oam | xfer => simp
  | hblank => by_cases hl : t.ly = 143 <;> simp [hl]

/-! What complete_frame and an edge of a visible line add to the three kinds of event. -/

theorem reads_frameEvents (s : State) : ((frameEvents s).filter isBusRead).length = 1 := by
  unfold frameEvents
  split <;> rfl

theorem requests_frameEvents (s : State) : (frameEvents s).filter isVblankRequest = [] := by
  unfold frameEvents
  split <;> rfl

theorem frames_frameEvents (s : State) :
    (frameEvents s).filter isFrame = if displayEnabled s = true then [.frameReady s.buf] else [] := by
  unfold frameEvents
  split <;> rfl

section
variable {t : State} (hm : t.mode ≠ .vblank)
include hm

theorem reads_edgeEvents (hl : t.ly ≤ 143) :
    ((edgeEvents t).filter isBusRead).length =
      61 * (if t.mode = .xfer then 1 else 0) + if (advance t).mode = .vblank then 1 else 0 := by
  simp only [advance_entersVblank_iff hm]
  unfold edgeEvents
  cases hmode : t.mode with
  | vblank => exact absurd hmode hm
  | oam => rfl
  | xfer => simp [filter_isBusRead_lineReads, length_lineReads, show t.ly < 144 by omega]
  | hblank =>
    by_cases hlast : t.ly = 143
    · have hadded : ((Event.irqReq .vblank .vblankEntry :: frameEvents t).filter isBusRead).length = 1 :=
        reads_frameEvents t
      simpa [hlast] using hadded
    · simp [hlast]

theorem requests_edgeEvents :
    (edgeEvents t).filter isVblankRequest =
      if (advance t).mode = .vblank then [.irqReq .vblank .vblankEntry] else [] := by
  simp only [advance_entersVblank_iff hm]
  unfold edgeEvents
  cases hmode : t.mode with
  | vblank => exact absurd hmode hm
  | oam => rfl
  | xfer => dsimp only; split <;> [exact filter_lineReads_eq_nil (fun _ _ => rfl) ..; rfl]
  | hblank =>
    by_cases hlast : t.ly = 143
    · have hadded : (Event.irqReq .vblank .vblankEntry :: frameEvents t).filter isVblankRequest =
          [.irqReq .vblank .vblankEntry] := congrArg (_ :: ·) (requests_frameEvents t)
      rw [if_pos hlast, hadded, if_pos ⟨rfl, hlast⟩]
    · simp [hlast]

theorem frames_edgeEvents :
    (edgeEvents t).filter isFrame =
      if (advance t).mode = .vblank ∧ displayEnabled t = true then [.frameReady (advance t).buf] else [] := by
  simp only [advance_entersVblank_iff hm]
  unfold edgeEvents
  cases hmode : t.mode with
  | vblank => exact absurd hmode hm
  | oam => rfl
  | xfer => dsimp only; split <;> [exact filter_lineReads_eq_nil (fun _ _ => rfl) ..; rfl]
  | hblank =>
    by_cases hlast : t.ly = 143
    · have hadded : (Event.irqReq .vblank .vblankEntry :: frameEvents t).filter isFrame =
          if displayEnabled t = true then [.frameReady t.buf] else [] := frames_frameEvents t
      simpa [hlast, advance_buf_of_ne_xfer, hmode] using hadded
    · simp [hlast]

end

/-- An edge draws the line it decodes as the bus of `s` gives it, and keeps the lines drawn before. -/
theorem Drawing.rows_advance {s t : State} (hc : configAdmitted s.cfg = true) (h : Drawing s t)
    (ha : threshold t.mode ≤ t.acc) {y : Nat} (hy : y < 144) (hd : y < linesDrawn (Machine.advance t)) :
    (Machine.advance t).buf[y] = linePixels s.cfg s.bus y := by
  rw [linesDrawn_advance (h.mode_ne_vblank ha)] at hd
  by_cases hx : t.mode = .xfer
  · have lines : linesDrawn t = t.ly := by rw [linesDrawn, hx]
    rw [if_pos hx, lines] at hd
    simp only [advance_of_xfer hx]
    by_cases hline : y = t.ly
    · subst hline
      rw [decodeScanline_row hy, statModeEntry_cfg]
      show linePixels t.cfg _ _ = _
      rw [h.cfg_eq]
      refine linePixels_congr (ifAddr_unread hc).1 (fun x hx => ?_) t.ly
      rw [statModeEntry_read_other _ (by exact h.cfg_eq ▸ hx), h.read_eq x hx]
    · rw [decodeScanline_row_of_ne (by omega) hy hline, statModeEntry_buf]
      exact h.rows y hy (by omega)
  · rw [if_neg hx] at hd
    simp only [advance_buf_of_ne_xfer hx]
    exact h.rows y hy hd

theorem Drawing.advance {s t : State} (hc : configAdmitted s.cfg = true) (h : Drawing s t)
    (ha : threshold t.mode ≤ t.acc) : Drawing s (advance t) := by
  have hm := h.mode_ne_vblank ha
  have hct : configAdmitted t.cfg = true := by rwa [h.cfg_eq]
  have hdisplay : displayEnabled t = displayEnabled s :=
    displayEnabled_congr h.cfg_eq (h.read_eq _ (ifAddr_unread hc).2)
  obtain ⟨toVblank, -, reads, requests, frames⟩ := id h
  simp only [hm, false_and, if_false, List.append_nil] at reads requests frames
  refine ⟨toVblank.advance ha, fun y hy hd => h.rows_advance hc ha hy hd, ?_, ?_, ?_⟩
  · rw [filter_trace_advance (fun _ => rfl) hct, List.length_append, reads, linesDrawn_advance hm,
      reads_edgeEvents hm (toVblank.schedule.1.2 hm)]
    omega
  · rw [filter_trace_advance (fun _ => rfl) hct, requests, requests_edgeEvents hm]
  · rw [filter_trace_advance (fun _ => rfl) hct, frames, frames_edgeEvents hm, hdisplay]

/-- The 144 visible lines from the start of line 0. -/
theorem drawing_runTransitions {s : State} (hc : configAdmitted s.cfg = true) (hs : LineStart s) (hl : s.ly = 0) :
    Drawing s (runTransitions (addCycles 65664 s)) :=
  runTransitions_induction (P := Drawing s) (fun _ ha h => h.advance hc ha) (drawing_of_lineStart hs hl)

/-- From any line of V-Blank to the start of line 153. -/
theorem runTransitions_toLastLine {s : State} (hm : s.mode = .vblank) (hl : s.ly ≤ 153) {extra : Nat}
    (ha : s.acc = 456 * (153 - s.ly) + extra) :
    runTransitions s = runTransitions { s with ly := 153, acc := extra } := by
  have hly : s.ly + (153 - s.ly) = 153 := by omega
  have hacc : s.acc - 456 * (153 - s.ly) = extra := by omega
  rw [runTransitions_vblankLines hm (n := 153 - s.ly) (by omega) (by omega), hly, hacc]

/-- And one line further, with no cycle left over: OAM-Scan at line 0. -/
theorem runTransitions_restOfVblank {s : State} (hm : s.mode = .vblank) (hl : s.ly ≤ 153)
    (ha : s.acc = 456 * (153 - s.ly) + 456) :
    runTransitions s = statModeEntry .oam { s with mode := .oam, ly := 0, acc := 0 } := by
  have last : advance { s with ly := 153, acc := 456 } =
      statModeEntry .oam { s with mode := .oam, ly := 0, acc := 0 } := by
    simpa using advance_of_vblank_ge (s := { s with ly := 153, acc := 456 }) hm (Nat.le_refl 153)
  rw [runTransitions_toLastLine hm hl ha, runTransitions_of_le (by simp [hm, threshold]), last]
  exact runTransitions_of_lt (by simp [threshold])

/-- Settles O39: after 65664 cycles the loop stands at the start of V-Blank with the frame drawn and emitted, and the
check after it touches neither the buffer nor the frames. -/
theorem emittedFrameShowsEveryLine : Obligations.EmittedFrameShowsEveryLine := by
  intro s hs hline hl hon
  have drawn := drawing_runTransitions hs.1 hline hl
  obtain ⟨hm, hly, hacc⟩ := drawn.arrived (runTransitions_acc_lt _)
  have hbuf : (stepCycles 65664 s).buf = (runTransitions (addCycles 65664 s)).buf := coincidenceCheck_buf _
  have hframes : (stepCycles 65664 s).trace.filter isFrame =
      (runTransitions (addCycles 65664 s)).trace.filter isFrame := filter_trace_coincidenceCheck rfl _
  refine ⟨_, _, exec_step_of_ready hs 65664, by rw [stepCycles_mode, hm], by rw [stepCycles_ly, hly],
    by rw [stepCycles_acc, hacc], rfl, ?_, fun y x hy hx => ?_⟩
  · rw [hframes, hbuf, drawn.frames, if_pos ⟨hm, hon⟩]
  · have row := drawn.rows y hy (by rw [linesDrawn, hm]; simpa [hly] using hy)
    simp only [hbuf, row]
    rw [← linePixel_eq (resolve_of_admitted hs.1)]
    simp [linePixels]

/-- Settles O38: the visible lines, then ten lines of V-Blank, which add nothing of the three kinds. -/
theorem frameTakes70224Cycles : Obligations.FrameTakes70224Cycles := by
  intro s hs hline hl
  have drawn := drawing_runTransitions hs.1 hline hl
  obtain ⟨hm, hly, hacc⟩ := drawn.arrived (runTransitions_acc_lt _)
  have hend : stepCycles (65664 + 4560) s = coincidenceCheck (statModeEntry .oam
      { runTransitions (addCycles 65664 s) with mode := .oam, ly := 0, acc := 0 }) := by
    rw [stepCycles_add]
    exact congrArg coincidenceCheck (runTransitions_restOfVblank
      (s := addCycles 4560 (runTransitions (addCycles 65664 s))) hm (by simp [hly]) (by simp [hly, hacc]))
  have events : ∀ f : Event → Bool, f (.irqReq .stat .coincidence) = false →
      (∀ m, f (.irqReq .stat (.modeEntry m)) = false) → (stepCycles (65664 + 4560) s).trace.filter f =
        (runTransitions (addCycles 65664 s)).trace.filter f := fun f hcheck hentry => by
    rw [hend, filter_trace_coincidenceCheck hcheck, filter_trace_statModeEntry hentry]
  refine ⟨_, exec_step_of_ready hs (65664 + 4560), ⟨?_, ?_⟩, ?_, ?_, ?_, ?_⟩
  · simp [hend]
  · simp [hend]
  · simp [hend]
  · rw [events _ rfl fun _ => rfl, drawn.requests, if_pos hm, List.length_append]
    rfl
  · rw [events _ rfl fun _ => rfl, drawn.frames, List.length_append, apply_ite List.length]
    simp only [hm, true_and]
    rfl
  · rw [events _ rfl fun _ => rfl, drawn.reads, if_pos hm, linesDrawn, hm]
    simp [hly]

/-- Settles O43: the write takes the line to 0 inside V-Blank, so 153 lines lead to line 153, and the 154th to the next
frame. None of them makes a VBlank request. -/
theorem scanlineWriteLengthensVblank : Obligations.ScanlineWriteLengthensVblank := by
  intro s v hs hm hacc
  have written : Ready { s with ly := 0 } := hs
  have hlast : runTransitions (addCycles 69768 { s with ly := 0 }) = { s with ly := 153, acc := 0 } :=
    (runTransitions_toLastLine (s := addCycles 69768 { s with ly := 0 }) hm (by simp) (by simp [hacc])).trans
      (runTransitions_of_lt (by simp [addCycles, hm, threshold]))
  have ht : stepCycles 69768 { s with ly := 0 } = coincidenceCheck { s with ly := 153, acc := 0 } :=
    congrArg coincidenceCheck hlast
  have hw : stepCycles 456 (stepCycles 69768 { s with ly := 0 }) = coincidenceCheck (statModeEntry .oam
      { coincidenceCheck { s with ly := 153, acc := 0 } with mode := .oam, ly := 0, acc := 0 }) := by
    rw [ht]
    exact congrArg coincidenceCheck (runTransitions_restOfVblank
      (s := addCycles 456 (coincidenceCheck { s with ly := 153, acc := 0 })) (by simp [addCycles, hm])
      (by simp) (by simp))
  refine ⟨_, _, _, exec_writeScanline_of_ready hs v, exec_step_of_ready written 69768,
    exec_step_of_ready (stepCycles_ready written 69768) 456, ?_⟩
  rw [hw, ht]
  refine ⟨by simp [hm], by simp, by simp, ?_, by simp, by simp, by simp, ?_⟩
  · rw [filter_trace_coincidenceCheck rfl]
  · rw [filter_trace_coincidenceCheck rfl, filter_trace_statModeEntry fun _ => rfl, filter_trace_coincidenceCheck rfl]

end Sys2Proof.Machine
end
